-- ==== Sys2Proof/Word.lean ====
section
/-!
DEFINITION. The widths of the block's values (00_scope.md R8: "host data bus 32 bits, host address 12 bits (byte
address), accumulator 32 bits, table entry 32 bits, table index 8 bits, stream data 8 bits per byte, chunk length
32 bits, port error word 32 bits") and of the step selector (30_encoding.md R87). Every value is unsigned (R9).
-/

namespace Sys2Proof

/-- A stream byte, and a table index (R8). -/
abbrev Byte := BitVec 8

/-- A register, a table entry, the accumulator, a chunk length, a port error word (R8). -/
abbrev Word := BitVec 32

/-- A byte address on the host bus (R8, R81). -/
abbrev Addr := BitVec 12

/-- The step selector `SEL = {EV[2:0], PHASE[2:0]}` (R87). -/
abbrev Sel := BitVec 6

end Sys2Proof
end

