-- ==== Sys2Proof/Config.lean ====
section
/-!
DEFINITION. What is fixed for an instance (00_scope.md R7, 10_state.md R37) and the values the spec leaves open after
the RESET step (10_state.md R21, 93_implementation_defined.md I13, I14).
-/

namespace Sys2Proof

/-- `TABLE_IMPL` (R7, D8): the table is generated after reset, or held in a ROM. -/
inductive TableImpl where
  | generate
  | rom
deriving DecidableEq, Repr

/-- The parameters of an instance (R7). DESIGN CHOICE (log entry 1), safe: they stand in the state, where no step
writes them, so that one `exec` covers every legal value. -/
structure Config where
  /-- `BUF_SIZE`, the size of each read request. -/
  bufSize : Nat
  /-- `TABLE_IMPL`. -/
  tableImpl : TableImpl
  /-- `SKIP_ZERO_LEN_WRITE`. -/
  skipZeroLenWrite : Bool
deriving DecidableEq, Repr

/-- The legal values of R7: `1 ≤ BUF_SIZE ≤ 2^32 − 1`; every value of the other two is legal. -/
def Config.wf (c : Config) : Bool := decide (1 ≤ c.bufSize) && decide (c.bufSize ≤ 2 ^ 32 - 1)

/-- The default values of R7. -/
def Config.default : Config := { bufSize := 8192, tableImpl := .generate, skipZeroLenWrite := false }

/-- `COUNT_W`, "listed as a parameter so the model names it; this spec fixes it at 64" (R7, D6). -/
def Config.countW : Nat := 64

/-- The bytes-read counter's type: `COUNT_W` bits, wrapping (10_state.md R26). -/
abbrev Count := BitVec 64

/-- `POLY` (R2, R37). -/
def Config.poly : Word := 0xEDB88320#32

/-- `INIT` (R2, R37). -/
def Config.init : Word := 0xFFFFFFFF#32

/-! The free values (log entry 3), safe: constants with no body, so nothing can be proved of what they are. The first
argument is the counter of RESET steps in the state; each RESET step draws a fresh set. -/

/-- `ACC` after the RESET step: unspecified (R21, R210). -/
opaque Config.freeAcc : Nat → Word

/-- `BUFLEN` after the RESET step: unspecified (R21, R210). -/
opaque Config.freeBufLen : Nat → Word

/-- `BUF[i]` after the RESET step: unspecified (R21, R210). -/
opaque Config.freeBuf : Nat → Nat → Byte

/-- `TABLE[i]` after the RESET step with `TABLE_IMPL = GENERATE`: unspecified until TBL_GEN (R21, R210). -/
opaque Config.freeTable : Nat → Byte → Word

end Sys2Proof
end

