-- ==== Sys2Proof/Syntax.lean ====
section
/-!
DEFINITION. The names the spec fixes (phases, causes, events), what an agent puts on the block's ports, and `Instr`:
one constructor per row of spec/opcode_table.json.
-/

namespace Sys2Proof

/-- `PHASE` (10_state.md R22). The reserved codes 5 to 7 are not representable (log entry 12, DEDUCED from I22). -/
inductive Phase where
  | idle
  | tblgen
  | rdwait
  | wrwait
  | proc
deriving DecidableEq, Repr

/-- `ERRSRC` (10_state.md R31, 60_exceptions.md R181). Code 3 is not representable (log entry 12). -/
inductive ErrSrc where
  | inErr
  | sinkErr
  | inLen
deriving DecidableEq, Repr

/-- `PCAUSE` (60_exceptions.md R181). `noError` is code 0, "no protocol error since reset"; codes 9 to 15 are not
representable (log entry 12). -/
inductive PCause where
  | noError
  | cmdBusy
  | cmdTblgen
  | cmdIllegal
  | busRoWrite
  | busUnmapped
  | busMisaligned
  | busWoRead
  | tblNotReady
deriving DecidableEq, Repr

/-- One host bus access (30_encoding.md R81): `BUSR` carries `ADDR`, `BUSW` carries `ADDR` and `WDATA`. -/
inductive HostAccess where
  | read (addr : Addr)
  | write (addr : Addr) (wdata : Word)
deriving DecidableEq, Repr

/-- An answer of the input agent (20_memory.md R62): `Data(n, b[0..n-1])` with `n` the number of bytes (log entry 13),
or `Err(e)`. -/
inductive InAnswer where
  | data (b : List Byte)
  | err (e : Word)
deriving DecidableEq, Repr

/-- An answer of the sink agent (20_memory.md R63). -/
inductive SinkAnswer where
  | ack
  | err (e : Word)
deriving DecidableEq, Repr

/-- What one agent does in one step (20_memory.md R71, the `EV` table of 30_encoding.md R87). `reserved` stands for an
event code that selects no step (`EV` 7, "no agent produces it"). -/
inductive Event where
  | internal
  | inData (b : List Byte)
  | inErr (e : Word)
  | sinkAck
  | sinkErr (e : Word)
  | reset
  | host (a : HostAccess)
  | reserved
deriving DecidableEq, Repr

/-- The operands that come with a step selector: none, a data answer's bytes, or an error word (30_encoding.md R83). -/
inductive Payload where
  | empty
  | data (b : List Byte)
  | err (e : Word)
deriving DecidableEq, Repr

/-- What the decoder reads (30_encoding.md R80): a host access (formats BUSW, BUSR; a write to `CMD` carries a CMDW),
or a step selector with its operands (format FSM). The block fetches no bytes (R75, log entry 18). -/
inductive Transaction where
  | bus (a : HostAccess)
  | fsm (sel : Sel) (p : Payload)
deriving DecidableEq, Repr

/-- The instructions: one constructor per row of spec/opcode_table.json, named after its mnemonic. -/
inductive Instr where
  /-- COMPUTE (41_stream_accumulator.md R123). -/
  | compute
  /-- COMPUTE_COPY (R124). -/
  | computeCopy
  /-- CMD_ILLEGAL: a `CMD` write of any other word (30_encoding.md R86 case 7a, 60_exceptions.md R186). -/
  | cmdIllegal (w : Word)
  /-- RD_STATUS (42_host_interface.md R161). -/
  | rdStatus
  /-- RD_RESULT (R162). -/
  | rdResult
  /-- RD_COUNT_LO (R163). -/
  | rdCountLo
  /-- RD_COUNT_HI (R164). -/
  | rdCountHi
  /-- RD_ERRINFO (R165). -/
  | rdErrinfo
  /-- RD_TABLE, entry `i` (R166). -/
  | rdTable (i : Byte)
  /-- BUS_ILLEGAL: every host access of R86 cases 1 to 4 (60_exceptions.md R186). -/
  | busIllegal (a : HostAccess)
  /-- TBL_GEN (40_table_generator.md R103). -/
  | tblGen
  /-- RD_RESP: `Data(n, b)` with `n ≤ BUF_SIZE` (R126). -/
  | rdResp (b : List Byte)
  /-- RD_LENERR: `Data(n, b)` with `n > BUF_SIZE` (60_exceptions.md R184). -/
  | rdLenerr (b : List Byte)
  /-- RD_ERR: the input answers `Err(e)` (R183). -/
  | rdErr (e : Word)
  /-- WR_ACK (R127). -/
  | wrAck
  /-- WR_ERR: the sink answers `Err(e)` (R185). -/
  | wrErr (e : Word)
  /-- CHUNK (R128). -/
  | chunk
  /-- FINISH (R129). -/
  | finish
  /-- RESET (70_reset_and_hazards.md R210). -/
  | reset
  /-- REDUCE_STEP(v) (R100); combinational, not encoded. -/
  | reduceStep (v : Word)
  /-- REDUCE8(i) (R101); combinational, not encoded. -/
  | reduce8 (i : Byte)
  /-- BYTE_UPDATE(acc, b) (R120); combinational, not encoded. -/
  | byteUpdate (acc : Word) (b : Byte)
deriving DecidableEq, Repr

/-- The "extra condition" column of 30_encoding.md R87 needs two values beside the selector: the parameter `BUF_SIZE`
(RD_RESP or RD_LENERR) and the register `BUFLEN` (CHUNK or FINISH). -/
structure DecodeCtx where
  bufSize : Nat
  buflen : Word
deriving DecidableEq, Repr

/-- Why a transaction selects no step. -/
inductive Reject where
  /-- The pair (`EV`, `PHASE`) is not in the table of R87. -/
  | noStep (sel : Sel)
  /-- The operands are not the ones the selector's event carries. -/
  | wrongOperands (sel : Sel)
  /-- A data answer of 2^32 bytes or more: its length is no 32-bit word (R83). -/
  | lengthTooWide
deriving DecidableEq, Repr

/-- What the decoder answers: an instruction, or a rejection by name. -/
inductive Decoded where
  | instr (i : Instr)
  | reject (r : Reject)
deriving DecidableEq, Repr

/-- The encoding columns of a row of spec/opcode_table.json: the width of what the row selects on, and the row's
"match" and "mask". -/
structure OpcodeRow where
  bits : Nat
  pattern : Nat
  mask : Nat
deriving DecidableEq, Repr

end Sys2Proof
end

