-- ==== Sys2Proof/WellFormed.lean ====
section
/-!
DEFINITION. When an instruction is well formed: the operands its row of spec/opcode_table.json admits (the row's
"condition" or "note"), written from the table's own words and not from the decoder.
-/

namespace Sys2Proof

/-- BUS_ILLEGAL's note: "misaligned, unmapped (0x018..0x3FC, 0x800..0xFFC), write to 0x004..0x014 or the TABLE window,
read of 0x000". An aligned write that is not to `CMD` is one of those, whatever its address. -/
def HostAccess.illegal : HostAccess → Bool
  | .read a =>
    decide (a.toNat % 4 ≠ 0) || (decide (0x018 ≤ a.toNat) && decide (a.toNat ≤ 0x3FC)) || decide (0x800 ≤ a.toNat)
      || decide (a.toNat = 0x000)
  | .write a _ => decide (a.toNat % 4 ≠ 0) || decide (a.toNat ≠ 0x000)

/-- CMD_ILLEGAL's note: "any CMD write word other than 0x00000001 and 0x00000011". -/
def illegalCommand (w : Word) : Bool := decide (w ≠ 0x00000001#32) && decide (w ≠ 0x00000011#32)

/-- An instruction the block can be given, for the values of `BUF_SIZE` and `BUFLEN` in `c` (R87, "extra
condition"). -/
def wellFormed (c : DecodeCtx) : Instr → Bool
  | .compute => true
  | .computeCopy => true
  | .cmdIllegal w => illegalCommand w
  | .rdStatus => true
  | .rdResult => true
  | .rdCountLo => true
  | .rdCountHi => true
  | .rdErrinfo => true
  | .rdTable _ => true
  | .busIllegal a => a.illegal
  | .tblGen => true
  | .rdResp b => decide (b.length ≤ c.bufSize)
  | .rdLenerr b => decide (c.bufSize < b.length) && decide (b.length < 2 ^ 32)
  | .rdErr _ => true
  | .wrAck => true
  | .wrErr _ => true
  | .chunk => decide (c.buflen ≠ 0#32)
  | .finish => decide (c.buflen = 0#32)
  | .reset => true
  | .reduceStep _ => true
  | .reduce8 _ => true
  | .byteUpdate _ _ => true

/-- The rows with an encoding: all but the three of format DATAPATH (30_encoding.md R80: "No encoding selects
them"). -/
def Instr.encoded : Instr → Bool
  | .compute => true
  | .computeCopy => true
  | .cmdIllegal _ => true
  | .rdStatus => true
  | .rdResult => true
  | .rdCountLo => true
  | .rdCountHi => true
  | .rdErrinfo => true
  | .rdTable _ => true
  | .busIllegal _ => true
  | .tblGen => true
  | .rdResp _ => true
  | .rdLenerr _ => true
  | .rdErr _ => true
  | .wrAck => true
  | .wrErr _ => true
  | .chunk => true
  | .finish => true
  | .reset => true
  | .reduceStep _ => false
  | .reduce8 _ => false
  | .byteUpdate _ _ => false

end Sys2Proof
end

