-- ==== Sys2Proof/Decode.lean ====
section
/-!
DEFINITION. The codes and fields of 30_encoding.md, the decoder of host accesses (R86) and of step selectors (R87), and
after it the encoder, from R82, R84, R85 and R87.
-/

namespace Sys2Proof

/-! ## Codes and fields -/

/-- The code of a phase (10_state.md R22). -/
def phaseCode : Phase → BitVec 3
  | .idle => 0#3
  | .tblgen => 1#3
  | .rdwait => 2#3
  | .wrwait => 3#3
  | .proc => 4#3

/-- The phase of a code; codes 5 to 7 are reserved (R22). -/
def phaseOfCode (c : BitVec 3) : Option Phase :=
  if c = 0#3 then some .idle
  else if c = 1#3 then some .tblgen
  else if c = 2#3 then some .rdwait
  else if c = 3#3 then some .wrwait
  else if c = 4#3 then some .proc
  else none

/-- `EV` of an event (30_encoding.md R87). -/
def eventCode : Event → BitVec 3
  | .internal => 0#3
  | .inData _ => 1#3
  | .inErr _ => 2#3
  | .sinkAck => 3#3
  | .sinkErr _ => 4#3
  | .reset => 5#3
  | .host _ => 6#3
  | .reserved => 7#3

/-- The operands an event brings (R83). -/
def eventPayload : Event → Payload
  | .internal => .empty
  | .inData b => .data b
  | .inErr e => .err e
  | .sinkAck => .empty
  | .sinkErr e => .err e
  | .reset => .empty
  | .host _ => .empty
  | .reserved => .empty

/-- `SEL = {EV[2:0], PHASE[2:0]}` (R87). -/
def selector (ev : Event) (p : Phase) : Sel := eventCode ev ++ phaseCode p

/-- What the decoder reads when the event `ev` happens in phase `p`: a host access is decoded by R86, every other event
through its selector (R87). -/
def transactionOf (ev : Event) (p : Phase) : Transaction :=
  match ev with
  | .host a => .bus a
  | _ => .fsm (selector ev p) (eventPayload ev)

/-- `ADDR` of an access (R81). -/
def HostAccess.addr : HostAccess → Addr
  | .read a => a
  | .write a _ => a

/-- `DIR` of an access: 0 read, 1 write (R81). -/
def HostAccess.dir : HostAccess → BitVec 1
  | .read _ => 0#1
  | .write _ _ => 1#1

/-- `ADDR[1:0] = 0` (R86 case 1, 20_memory.md R66). -/
def addrAligned (a : Addr) : Bool := decide (a.extractLsb' 0 2 = 0#2)

/-- `ADDR[11:10] = 0b01`: the `TABLE` window of an aligned address (R85). -/
def inTableWindow (a : Addr) : Bool := decide (a.extractLsb' 10 2 = 0b01#2)

/-- `ADDR in {0x000..0x014}`, the six control and status registers (R84, R86 case 2). -/
def inRegisters (a : Addr) : Bool := decide (a.toNat ≤ 0x014)

/-- The table index `i = ADDR[9:2]` (R83, R85). -/
def tableIndex (a : Addr) : Byte := a.extractLsb' 2 8

/-- The address of `TABLE[i]`, `0x400 + 4·i` (R85). -/
def tableAddr (i : Byte) : Addr := 0b01#2 ++ i ++ 0b00#2

/-- R86 case 7a negated: `WDATA[3:0] = 0x1` and `WDATA[31:5] = 0` (R82). -/
def commandLegal (w : Word) : Bool := decide (w.extractLsb' 0 4 = 0x1#4) && decide (w.extractLsb' 5 27 = 0#27)

/-- The field `C` of a command word (R82). -/
def commandC (w : Word) : Bool := w.getLsbD 4

/-- The causes of R86 cases 1 to 4, the first that applies; `none` where none of them does. -/
def busCause (a : HostAccess) : Option PCause :=
  if addrAligned a.addr = false then some .busMisaligned
  else if inRegisters a.addr = false && inTableWindow a.addr = false then some .busUnmapped
  else match a with
    | .write addr _ => if addr = 0x000#12 then none else some .busRoWrite
    | .read addr => if addr = 0x000#12 then some .busWoRead else none

/-! ## The decoder -/

/-- R86: the instruction of a host access, total over every address, direction and data word. The cases that look at
the state (5, 7b, 7c) are in the meanings of RD_TABLE, COMPUTE and COMPUTE_COPY. -/
def decodeHost (a : HostAccess) : Instr :=
  match busCause a with
  | some _ => .busIllegal a
  | none =>
    match a with
    | .read addr =>
      if inTableWindow addr then .rdTable (tableIndex addr)
      else if addr = 0x004#12 then .rdStatus
      else if addr = 0x008#12 then .rdResult
      else if addr = 0x00C#12 then .rdCountLo
      else if addr = 0x010#12 then .rdCountHi
      else .rdErrinfo
    | .write _ w =>
      if commandLegal w then (if commandC w then .computeCopy else .compute) else .cmdIllegal w

/-- A step without operands. -/
def decodeBare (sel : Sel) (p : Payload) (i : Instr) : Decoded :=
  match p with
  | .empty => .instr i
  | _ => .reject (.wrongOperands sel)

/-- A data answer in `RDWAIT`: RD_RESP if `n ≤ BUF_SIZE`, RD_LENERR if `n > BUF_SIZE` (R87). -/
def decodeData (c : DecodeCtx) (sel : Sel) (p : Payload) : Decoded :=
  match p with
  | .data b =>
    if b.length ≤ c.bufSize then .instr (.rdResp b)
    else if b.length < 2 ^ 32 then .instr (.rdLenerr b)
    else .reject .lengthTooWide
  | _ => .reject (.wrongOperands sel)

/-- The rows of the table of R87, in its order. RESET's mask leaves the phase out. -/
def decodeFsm (c : DecodeCtx) (sel : Sel) (p : Payload) : Decoded :=
  if sel = 0b000001#6 then decodeBare sel p .tblGen
  else if sel = 0b001010#6 then decodeData c sel p
  else if sel = 0b010010#6 then
    (match p with
    | .err e => .instr (.rdErr e)
    | _ => .reject (.wrongOperands sel))
  else if sel = 0b011011#6 then decodeBare sel p .wrAck
  else if sel = 0b100011#6 then
    (match p with
    | .err e => .instr (.wrErr e)
    | _ => .reject (.wrongOperands sel))
  else if sel = 0b000100#6 then decodeBare sel p (if c.buflen = 0#32 then .finish else .chunk)
  else if sel &&& 0b111000#6 = 0b101000#6 then decodeBare sel p .reset
  else .reject (.noStep sel)

/-- The decoder: total, rejecting by name. -/
def decode (c : DecodeCtx) : Transaction → Decoded
  | .bus a => .instr (decodeHost a)
  | .fsm sel p => decodeFsm c sel p

/-! ## The encoder -/

/-- The transaction of an instruction (R82, R84, R85, R87); none for the datapath rows, which have no encoding (R80).
RESET's don't-care phase bits are written 000 (log entry 11). -/
def encode : Instr → Option Transaction
  | .compute => some (.bus (.write 0x000#12 0x00000001#32))
  | .computeCopy => some (.bus (.write 0x000#12 0x00000011#32))
  | .cmdIllegal w => some (.bus (.write 0x000#12 w))
  | .rdStatus => some (.bus (.read 0x004#12))
  | .rdResult => some (.bus (.read 0x008#12))
  | .rdCountLo => some (.bus (.read 0x00C#12))
  | .rdCountHi => some (.bus (.read 0x010#12))
  | .rdErrinfo => some (.bus (.read 0x014#12))
  | .rdTable i => some (.bus (.read (tableAddr i)))
  | .busIllegal a => some (.bus a)
  | .tblGen => some (.fsm 0b000001#6 .empty)
  | .rdResp b => some (.fsm 0b001010#6 (.data b))
  | .rdLenerr b => some (.fsm 0b001010#6 (.data b))
  | .rdErr e => some (.fsm 0b010010#6 (.err e))
  | .wrAck => some (.fsm 0b011011#6 .empty)
  | .wrErr e => some (.fsm 0b100011#6 (.err e))
  | .chunk => some (.fsm 0b000100#6 .empty)
  | .finish => some (.fsm 0b000100#6 .empty)
  | .reset => some (.fsm 0b101000#6 .empty)
  | .reduceStep _ => none
  | .reduce8 _ => none
  | .byteUpdate _ _ => none

/-- The row of spec/opcode_table.json an instruction belongs to: the width its format selects on (CMDW 32, BUSR 12,
FSM 6 bits), "match" and "mask". -/
def opcodeRow : Instr → Option OpcodeRow
  | .compute => some { bits := 32, pattern := 0x00000001, mask := 0xFFFFFFFF }
  | .computeCopy => some { bits := 32, pattern := 0x00000011, mask := 0xFFFFFFFF }
  | .cmdIllegal _ => some { bits := 32, pattern := 0x00000000, mask := 0x00000000 }
  | .rdStatus => some { bits := 12, pattern := 0x004, mask := 0xFFF }
  | .rdResult => some { bits := 12, pattern := 0x008, mask := 0xFFF }
  | .rdCountLo => some { bits := 12, pattern := 0x00C, mask := 0xFFF }
  | .rdCountHi => some { bits := 12, pattern := 0x010, mask := 0xFFF }
  | .rdErrinfo => some { bits := 12, pattern := 0x014, mask := 0xFFF }
  | .rdTable _ => some { bits := 12, pattern := 0x400, mask := 0xC03 }
  | .busIllegal _ => some { bits := 12, pattern := 0x000, mask := 0x000 }
  | .tblGen => some { bits := 6, pattern := 0b000001, mask := 0b111111 }
  | .rdResp _ => some { bits := 6, pattern := 0b001010, mask := 0b111111 }
  | .rdLenerr _ => some { bits := 6, pattern := 0b001010, mask := 0b111111 }
  | .rdErr _ => some { bits := 6, pattern := 0b010010, mask := 0b111111 }
  | .wrAck => some { bits := 6, pattern := 0b011011, mask := 0b111111 }
  | .wrErr _ => some { bits := 6, pattern := 0b100011, mask := 0b111111 }
  | .chunk => some { bits := 6, pattern := 0b000100, mask := 0b111111 }
  | .finish => some { bits := 6, pattern := 0b000100, mask := 0b111111 }
  | .reset => some { bits := 6, pattern := 0b101000, mask := 0b111000 }
  | .reduceStep _ => none
  | .reduce8 _ => none
  | .byteUpdate _ _ => none

/-- The bits a row selects on, as a number: the command word of a write to `CMD`, else the address of a host access,
or the step selector. -/
def selectingBits (r : OpcodeRow) : Transaction → Nat
  | .bus (.write a w) => if r.bits = 32 then w.toNat else a.toNat
  | .bus (.read a) => a.toNat
  | .fsm sel _ => sel.toNat

/-! ## Words of the opcode table

DESIGN CHOICE (log entries 10 and 18): the width says the format (32 bits a command word, 16 a 12-bit read address, 8 a
6-bit selector), and an operand the table gives no bits is zero: no bytes, error word 0, `BUFLEN` 0. -/

/-- The event whose code is `EV`, with zero operands; 6 is a host access, which no selector names, and 7 is reserved. -/
def eventOfCode (ev : BitVec 3) : Event :=
  if ev = 0#3 then .internal
  else if ev = 1#3 then .inData []
  else if ev = 2#3 then .inErr 0#32
  else if ev = 3#3 then .sinkAck
  else if ev = 4#3 then .sinkErr 0#32
  else if ev = 5#3 then .reset
  else .reserved

/-- The event and the phase that a table word stands for. A word with bits outside its format, or of no format,
stands for the reserved event. A host access and a reset need no phase of their own. -/
def eventOfTableWord (nbits w : Nat) : Event × Option Phase :=
  if nbits = 32 ∧ w < 2 ^ 32 then (.host (.write 0x000#12 (BitVec.ofNat 32 w)), none)
  else if nbits = 16 ∧ w < 2 ^ 12 then (.host (.read (BitVec.ofNat 12 w)), none)
  else if nbits = 8 ∧ w < 2 ^ 6 then
    (let ev := eventOfCode (BitVec.ofNat 3 (w / 8))
     if ev = .reset then (ev, none)
     else match phaseOfCode (BitVec.ofNat 3 (w % 8)) with
      | some p => (ev, some p)
      | none => (.reserved, none))
  else (.reserved, none)

/-- The context of a table word: the default `BUF_SIZE` (00_scope.md R7), `BUFLEN` zero. -/
def tableCtx : DecodeCtx := { bufSize := Config.default.bufSize, buflen := 0#32 }

/-- The instruction the decoder reads from a table word. -/
def decodeTableWord (nbits w : Nat) : Option Instr :=
  let (ev, p) := eventOfTableWord nbits w
  match decode tableCtx (transactionOf ev (p.getD .idle)) with
  | .instr i => some i
  | .reject _ => none

end Sys2Proof
end

