-- ==== Sys2Proof/Machine/Datapath.lean ====
section
/-!
DEFINITION. The combinational functions: the polynomial reducer (40_table_generator.md R100, R101), the table's
contents (R104), the per-byte update, FOLD and CRC (41_stream_accumulator.md R120, R122).
-/

namespace Sys2Proof.Machine

/-- REDUCE_STEP (R100). -/
def reduceStep (v : Word) : Word := if v.getLsbD 0 then (v >>> 1) ^^^ Config.poly else v >>> 1

/-- `k` applications of REDUCE_STEP. -/
def reduceIter : Nat → Word → Word
  | 0, v => v
  | k + 1, v => reduceIter k (reduceStep v)

/-- REDUCE8 (R101): zero-extend, then eight iterations. -/
def reduce8 (i : Byte) : Word := reduceIter 8 (i.setWidth 32)

/-- `TABLE`: 256 words, indexed by a byte (10_state.md R24). -/
abbrev Table := Vector Word 256

/-- `TABLE[i]`. The index is 8 bits, "so it always names an entry" (R120). -/
def tableAt (t : Table) (i : Byte) : Word := t[i.toNat]'i.isLt

/-- The table whose entry `i` is `f i`. -/
def tableOf (f : Byte → Word) : Table :=
  ⟨((List.range 256).map fun i => f (BitVec.ofNat 8 i)).toArray, by simp⟩

/-- The table's contents after TBL_GEN, and of the ROM (R104): `TABLE[i] = REDUCE8(i)`. -/
def crcTable : Table := tableOf reduce8

/-- BYTE_UPDATE (R120). -/
def byteUpdate (t : Table) (acc : Word) (b : Byte) : Word := (acc >>> 8) ^^^ tableAt t (b ^^^ acc.setWidth 8)

/-- FOLD (R122): the bytes in stream order. -/
def fold (t : Table) : Word → List Byte → Word
  | acc, [] => acc
  | acc, b :: rest => fold t (byteUpdate t acc b) rest

/-- CRC (R122). -/
def crc (bs : List Byte) : Word := ~~~ fold crcTable Config.init bs

end Sys2Proof.Machine
end

