-- ==== Sys2Proof/Machine/State.lean ====
section
/-!
DEFINITION. The state: every element of 10_state.md R21, the two observation logs of R40, the instance's parameters
(R37), and five fields of the model's own (`rdata`, `dpOut`, `agenda`, `recurring`, `freeCtr`). Plain data.
-/

namespace Sys2Proof.Machine

/-- One transaction of the sink log (10_state.md R40): `(n, bytes)` with its answer; `none` while the write is
outstanding, and for good when reset abandoned it (log entry 8). -/
structure SinkEntry where
  n : Word
  bytes : List Byte
  answer : Option SinkAnswer
deriving DecidableEq, Repr

/-- One instance of the block. -/
structure State where
  /-- The parameters (R7, R37); no step writes them (log entry 1). -/
  cfg : Config
  /-- `TABLE` (R24). -/
  table : Table
  /-- `ACC` (R25). -/
  acc : Word
  /-- `COUNT` (R26). -/
  count : Count
  /-- `BUF`, `BUF_SIZE` bytes, `BUF[0]` first (R27). -/
  buf : List Byte
  /-- `BUFLEN` (R27). -/
  buflen : Word
  /-- `PHASE` (R22). -/
  phase : Phase
  /-- `COPY` (R28). -/
  copy : Bool
  /-- `TBLRDY` (R34). -/
  tblrdy : Bool
  /-- `DONE` (R30). -/
  done : Bool
  /-- `IOERR` (R31). -/
  ioerr : Bool
  /-- `ERRSRC` (R31). -/
  errsrc : ErrSrc
  /-- `ERRINFO` (R32). -/
  errinfo : Word
  /-- `PERR` (R33). -/
  perr : Bool
  /-- `PCAUSE` (R33). -/
  pcause : PCause
  /-- `RESULT` (R29). -/
  result : Word
  /-- `INLOG` (R40), oldest first. -/
  inlog : List InAnswer
  /-- `SINKLOG` (R40), oldest first. -/
  sinklog : List SinkEntry
  /-- The model's own: the `RDATA` of the last host read (30_encoding.md R81; log entry 6). -/
  rdata : Word
  /-- The model's own: the value of the last datapath row run by itself (log entry 7). -/
  dpOut : Word
  /-- The model's own: what the agents do next, in this order (log entry 4). -/
  agenda : List Event
  /-- The model's own: what the agents do again and again once the agenda is empty (70_reset_and_hazards.md R223, "An
  input that always returns more bytes keeps it busy forever"; log entry 19). -/
  recurring : List Event
  /-- The model's own: how many RESET steps have drawn free values (log entry 3). -/
  freeCtr : Nat
deriving DecidableEq, Repr

/-- Why a run makes no progress. -/
inductive Fault where
  /-- Raised by `step` alone: no agent has an event to come and no core step is enabled (70_reset_and_hazards.md R223,
  treatment `stuck` of I10). Safe: the block waits too. -/
  | stuck
deriving DecidableEq, Repr

/-- Why an instruction or an event has no step. -/
inductive Refusal where
  /-- Raised by `exec` for an instruction that has no meaning yet. Safe. -/
  | notModelled (mnemonic : String)
  /-- Raised by `step`: the agents' next event selects no step in this phase (30_encoding.md R87, "has no step";
  treatment `refuse` of I18). Safe: the spec admits no step there. -/
  | notAdmitted (r : Reject)
  /-- Raised by the meaning of a step outside its "Enabled when" (R87), and of CMD_ILLEGAL, BUS_ILLEGAL and a data
  answer on operands that are not theirs. Safe: no decoded transaction reaches it. -/
  | notEnabled
deriving DecidableEq, Repr

/-- The machine right after power-up with the default parameters (00_scope.md R7; 10_state.md R21, column "reset";
70_reset_and_hazards.md R213). DESIGN CHOICE (log entry 2), unsafe: `TABLE`, `ACC`, `BUF` and `BUFLEN`, which the spec
leaves unspecified, are zero here. -/
def State.reset : State where
  cfg := Config.default
  table := Vector.replicate 256 0#32
  acc := 0#32
  count := 0#64
  buf := List.replicate Config.default.bufSize 0#8
  buflen := 0#32
  phase := .tblgen
  copy := false
  tblrdy := false
  done := false
  ioerr := false
  errsrc := .inErr
  errinfo := 0x00000000#32
  perr := false
  pcause := .noError
  result := 0x00000000#32
  inlog := []
  sinklog := []
  rdata := 0#32
  dpOut := 0#32
  agenda := []
  recurring := []
  freeCtr := 0

end Sys2Proof.Machine
end

