-- ==== Sys2Proof/Machine/Flags.lean ====
section
/-!
DEFINITION. The computed flag `BUSY`, the codes of the coded fields and the packing of `STATUS` (10_state.md R22, R23,
R31, R33, R35; 42_host_interface.md R161).
-/

namespace Sys2Proof.Machine

/-- `BUSY` is not stored (R23): 1 in `RDWAIT`, `WRWAIT` and `PROC`. -/
def busy (s : State) : Bool :=
  match s.phase with
  | .idle => false
  | .tblgen => false
  | .rdwait => true
  | .wrwait => true
  | .proc => true

/-- The code of `ERRSRC` (60_exceptions.md R181). -/
def errSrcCode : ErrSrc → BitVec 2
  | .inErr => 0#2
  | .sinkErr => 1#2
  | .inLen => 2#2

/-- The code of `PCAUSE` (60_exceptions.md R181). -/
def pcauseCode : PCause → BitVec 4
  | .noError => 0#4
  | .cmdBusy => 1#4
  | .cmdTblgen => 2#4
  | .cmdIllegal => 3#4
  | .busRoWrite => 4#4
  | .busUnmapped => 5#4
  | .busMisaligned => 6#4
  | .busWoRead => 7#4
  | .tblNotReady => 8#4

/-- The 16 low bits of `STATUS`, most significant field first, in the order R161 concatenates them. -/
def statusFields (s : State) : BitVec 16 :=
  pcauseCode s.pcause ++ 0#1 ++ phaseCode s.phase ++ BitVec.ofBool s.copy ++ BitVec.ofBool s.tblrdy
    ++ BitVec.ofBool s.perr ++ errSrcCode s.errsrc ++ BitVec.ofBool s.ioerr ++ BitVec.ofBool s.done
    ++ BitVec.ofBool (busy s)

/-- The `STATUS` register (R35, R161): bits 31:16 read 0. -/
def statusWord (s : State) : Word := (statusFields s).setWidth 32

end Sys2Proof.Machine
end

