-- ==== Sys2Proof/Machine/Operands.lean ====
section
/-!
DEFINITION. What the steps read: the halves of `COUNT`, the byte lanes of a register, the chunk in `BUF`, a chunk's
length, the copy-through mux (41_stream_accumulator.md R125) and the outstanding port transaction (10_state.md R22).
-/

namespace Sys2Proof.Machine

/-- `COUNT_LO = COUNT[31:0]` (30_encoding.md R84). -/
def countLo (c : Count) : Word := c.extractLsb' 0 32

/-- `COUNT_HI = COUNT[63:32]` (R84). -/
def countHi (c : Count) : Word := c.extractLsb' 32 32

/-- Lane `k` of a register carries bits `[8k+7:8k]` (20_memory.md R65). -/
def lane (w : Word) (k : Nat) : Byte := w.extractLsb' (8 * k) 8

/-- The register whose lanes 0 to 3 are the four bytes (R65). -/
def ofLanes (b0 b1 b2 b3 : Byte) : Word := b3 ++ b2 ++ b1 ++ b0

/-- `BUF[i]`; `none` where `BUF` has no byte `i` (10_state.md R27). -/
def bufByte (s : State) (i : Nat) : Option Byte := s.buf[i]?

/-- `BUF[0..BUFLEN-1]` (R27). -/
def chunkBytes (s : State) : List Byte := s.buf.take s.buflen.toNat

/-- The length `n` of a data answer, a 32-bit word (30_encoding.md R83; log entry 13). -/
def answerLength (b : List Byte) : Word := BitVec.ofNat 32 b.length

/-- `sink_write_enable(n) = COPY = 1 and not (SKIP_ZERO_LEN_WRITE and n = 0)` (R125). -/
def sinkWriteEnable (s : State) (n : Nat) : Bool := s.copy && !(s.cfg.skipZeroLenWrite && decide (n = 0))

/-- `sink_write_data = BUF[0..n-1]` (R125). -/
def sinkWriteData (s : State) (n : Nat) : List Byte := s.buf.take n

/-- A transaction the block has issued on a port and that is not answered (20_memory.md R62, R63). -/
inductive PortRequest where
  | inRead (max : Nat)
  | sinkWrite (n : Word) (bytes : List Byte)
deriving DecidableEq, Repr

/-- The outstanding transaction, "fully determined by `PHASE`" (10_state.md R22, R38). -/
def outstanding (s : State) : Option PortRequest :=
  match s.phase with
  | .idle => none
  | .tblgen => none
  | .rdwait => some (.inRead s.cfg.bufSize)
  | .wrwait => some (.sinkWrite s.buflen (chunkBytes s))
  | .proc => none

/-- The context the decoder needs in a state (30_encoding.md R87, "extra condition"). -/
def decodeCtx (s : State) : DecodeCtx := { bufSize := s.cfg.bufSize, buflen := s.buflen }

end Sys2Proof.Machine
end

