-- ==== Sys2Proof/Machine/Ops.lean ====
section
/-!
DEFINITION. The shared operations: the two kinds of exceptional event (60_exceptions.md R182, R186), START
(41_stream_accumulator.md R123), storing and routing a chunk (R125, R126), the observation logs (10_state.md R40) and
reset (70_reset_and_hazards.md R210). There is no return from an exception (R192).
-/

namespace Sys2Proof.Machine

/-- What a meaning answers. -/
abbrev Result := Host.Outcome State Fault Refusal

/-- A step is taken where it is enabled; elsewhere it has no step (30_encoding.md R87; log entry 9). -/
def whenEnabled (enabled : Bool) (next : State) : Result :=
  if enabled then .next next else .refused .notEnabled

/-! ## Exceptional events -/

/-- `raise IOError(src, info)` (R182). -/
def raiseIOError (src : ErrSrc) (info : Word) (s : State) : State :=
  { s with ioerr := true, errsrc := src, errinfo := info, phase := .idle }

/-- `raise ProtocolError(cause)` (R186): the first cause since reset is kept (R187). -/
def raiseProtocolError (cause : PCause) (s : State) : State :=
  { s with pcause := if s.perr then s.pcause else cause, perr := true }

/-- A read returns `RDATA` (42_host_interface.md R160; log entry 6). -/
def returnRead (v : Word) (s : State) : State := { s with rdata := v }

/-- A rejected access: "a rejected read returns RDATA = 0x00000000, a rejected write changes nothing else" (R186). -/
def rejectAccess (a : HostAccess) (cause : PCause) (s : State) : State :=
  match a with
  | .read _ => returnRead 0x00000000#32 (raiseProtocolError cause s)
  | .write _ _ => raiseProtocolError cause s

/-! ## Commands -/

/-- The state after START (R123; `copy` is the command word's `C` bit, R124). -/
def started (copy : Bool) (s : State) : State :=
  { s with
    acc := Config.init
    count := 0#64
    copy := copy
    done := false
    ioerr := false
    errsrc := .inErr
    errinfo := 0x00000000#32
    phase := .rdwait }

/-- A legal command word: START in `IDLE`, a protocol error in every other phase (30_encoding.md R86 cases 7b to 7e). -/
def startCommand (copy : Bool) (s : State) : State :=
  match s.phase with
  | .idle => started copy s
  | .tblgen => raiseProtocolError .cmdTblgen s
  | .rdwait => raiseProtocolError .cmdBusy s
  | .wrwait => raiseProtocolError .cmdBusy s
  | .proc => raiseProtocolError .cmdBusy s

/-! ## Chunks and logs -/

/-- `BUF[0..n-1] <- b[0..n-1]` (R126): the bytes from `n` on stay. -/
def writeBuf (buf b : List Byte) : List Byte := b ++ buf.drop b.length

/-- `INLOG` records an answer of the input agent (10_state.md R40). -/
def logInput (a : InAnswer) (s : State) : State := { s with inlog := s.inlog ++ [a] }

/-- The answer of the last sink transaction, which is the outstanding one in `WRWAIT` (R40; log entry 8). -/
def answerLast (a : SinkAnswer) : List SinkEntry → List SinkEntry
  | [] => []
  | [e] => [{ e with answer := some a }]
  | e :: e' :: rest => e :: answerLast a (e' :: rest)

/-- `SINKLOG` records the sink agent's answer (R40). -/
def logSinkAnswer (a : SinkAnswer) (s : State) : State := { s with sinklog := answerLast a s.sinklog }

/-- The first two lines of RD_RESP (R126). -/
def storeChunk (b : List Byte) (s : State) : State :=
  { s with buf := writeBuf s.buf b, buflen := answerLength b }

/-- The block issues `SinkWrite(n, BUF[0..n-1])` and waits in `WRWAIT` (R125, R126); `SINKLOG` records it (R40). -/
def issueSinkWrite (n : Nat) (s : State) : State :=
  { s with
    phase := .wrwait
    sinklog := s.sinklog ++ [{ n := BitVec.ofNat 32 n, bytes := sinkWriteData s n, answer := none }] }

/-- The copy-through mux (R125, the `if` of R126). -/
def routeChunk (n : Nat) (s : State) : State :=
  if sinkWriteEnable s n then issueSinkWrite n s else { s with phase := .proc }

/-! ## The agents' events -/

/-- The events to come: the agenda, and once it is empty the recurring events, from their beginning (log entries 4 and
19). -/
def State.upcoming (s : State) : List Event :=
  match s.agenda with
  | [] => s.recurring
  | ev :: rest => ev :: rest

/-- The event taken next: the first to come, or, where there is none, the core steps by itself (`INTERNAL`). -/
def nextEvent (s : State) : Event := s.upcoming.headD .internal

/-- The state in which the next event is taken: the events after it are the agenda. -/
def State.takeEvent (s : State) : State := { s with agenda := s.upcoming.tail }

/-! ## Reset -/

/-- `PHASE` after reset (10_state.md R21). -/
def phaseAfterReset : TableImpl → Phase
  | .generate => .tblgen
  | .rom => .idle

/-- `TBLRDY` after reset (R21). -/
def tblrdyAfterReset : TableImpl → Bool
  | .generate => false
  | .rom => true

/-- `TABLE` after a RESET step (R210): unspecified with GENERATE (log entry 3), the ROM's values with ROM. -/
def tableAfterReset (k : Nat) : TableImpl → Table
  | .generate => tableOf (Config.freeTable k)
  | .rom => crcTable

/-- The state after the RESET step (R210): "every element of 10_state.md rule R21 <- its reset value there". The
unspecified ones are free values, a fresh set at each RESET (log entry 3). -/
def resetState (s : State) : State :=
  { s with
    table := tableAfterReset s.freeCtr s.cfg.tableImpl
    acc := Config.freeAcc s.freeCtr
    count := 0#64
    buf := (List.range s.cfg.bufSize).map (Config.freeBuf s.freeCtr)
    buflen := Config.freeBufLen s.freeCtr
    phase := phaseAfterReset s.cfg.tableImpl
    copy := false
    tblrdy := tblrdyAfterReset s.cfg.tableImpl
    done := false
    ioerr := false
    errsrc := .inErr
    errinfo := 0x00000000#32
    perr := false
    pcause := .noError
    result := 0x00000000#32
    freeCtr := s.freeCtr + 1 }

/-- Power-up of an instance with the parameters `c` (R213, "Power-up is a reset"): State.reset for the default
parameters; the unspecified elements are zero, as in State.reset (DESIGN CHOICE, log entry 2, unsafe). -/
def powerUp (c : Config) : State :=
  { State.reset with
    cfg := c
    table := match c.tableImpl with
      | .generate => State.reset.table
      | .rom => crcTable
    buf := List.replicate c.bufSize 0#8
    phase := phaseAfterReset c.tableImpl
    tblrdy := tblrdyAfterReset c.tableImpl }

end Sys2Proof.Machine
end

