-- ==== Sys2Proof/Machine/Errors.lean ====
section
/-!
DEFINITION. The meanings of RD_ERR, RD_LENERR, WR_ERR (60_exceptions.md R183 to R185) and of the two catch-all rows
CMD_ILLEGAL and BUS_ILLEGAL (R186, 30_encoding.md R86 cases 1 to 4 and 7a).
-/

namespace Sys2Proof.Machine

/-- RD_ERR (R183): `raise IOError(0, e)`. -/
def execRdErr (e : Word) (s : State) : Result :=
  whenEnabled (decide (s.phase = .rdwait)) (raiseIOError .inErr e (logInput (.err e) s))

/-- RD_LENERR (R184): `raise IOError(2, n)`; "No byte of `b` is stored, counted, folded or copied". -/
def execRdLenerr (b : List Byte) (s : State) : Result :=
  whenEnabled (decide (s.phase = .rdwait) && decide (s.cfg.bufSize < b.length) && decide (b.length < 2 ^ 32))
    (raiseIOError .inLen (answerLength b) (logInput (.data b) s))

/-- WR_ERR (R185): `raise IOError(1, e)`. -/
def execWrErr (e : Word) (s : State) : Result :=
  whenEnabled (decide (s.phase = .wrwait)) (raiseIOError .sinkErr e (logSinkAnswer (.err e) s))

/-- CMD_ILLEGAL (R86 case 7a): `ProtocolError(CMD_ILLEGAL)` in every phase, the command ignored. -/
def execCmdIllegal (w : Word) (s : State) : Result :=
  whenEnabled (!commandLegal w) (rejectAccess (.write 0x000#12 w) .cmdIllegal s)

/-- BUS_ILLEGAL: `ProtocolError` with the first cause of R86 cases 1 to 4 that applies, in every phase. -/
def execBusIllegal (a : HostAccess) (s : State) : Result :=
  match busCause a with
  | some cause => .next (rejectAccess a cause s)
  | none => .refused .notEnabled

end Sys2Proof.Machine
end

