-- ==== Sys2Proof/Machine/HostReads.lean ====
section
/-!
DEFINITION. The meanings of the register reads (42_host_interface.md R161 to R166): `RDATA <- ...`, nothing else. A
legal read is enabled in every phase and writes no state of the block (R160).
-/

namespace Sys2Proof.Machine

/-- RD_STATUS (R161). -/
def execRdStatus (s : State) : Result := .next (returnRead (statusWord s) s)

/-- RD_RESULT (R162). -/
def execRdResult (s : State) : Result := .next (returnRead s.result s)

/-- RD_COUNT_LO (R163). -/
def execRdCountLo (s : State) : Result := .next (returnRead (countLo s.count) s)

/-- RD_COUNT_HI (R164). -/
def execRdCountHi (s : State) : Result := .next (returnRead (countHi s.count) s)

/-- RD_ERRINFO (R165). -/
def execRdErrinfo (s : State) : Result := .next (returnRead s.errinfo s)

/-- RD_TABLE (R166): with `TBLRDY = 0`, `ProtocolError(TBL_NOT_READY)` and `RDATA = 0x00000000` (30_encoding.md R86
case 5). -/
def execRdTable (i : Byte) (s : State) : Result :=
  if s.tblrdy then .next (returnRead (tableAt s.table i) s)
  else .next (rejectAccess (.read (tableAddr i)) .tblNotReady s)

end Sys2Proof.Machine
end

