-- ==== Sys2Proof/Machine/Reset.lean ====
section
/-!
DEFINITION. The meaning of RESET (70_reset_and_hazards.md R210), enabled in every phase.
-/

namespace Sys2Proof.Machine

/-- RESET (R210). An outstanding transaction is abandoned: no phase waits for it any more (R212). -/
def execReset (s : State) : Result := .next (resetState s)

end Sys2Proof.Machine
end

