-- ==== Sys2Proof/Machine/Stream.lean ====
section
/-!
DEFINITION. The meanings of BYTE_UPDATE, COMPUTE, COMPUTE_COPY, RD_RESP, WR_ACK, CHUNK and FINISH
(41_stream_accumulator.md R120, R123, R124, R126 to R129).
-/

namespace Sys2Proof.Machine

/-- BYTE_UPDATE(acc, b) (R120), with the state's `TABLE`; its value goes to `dpOut` (log entry 7). -/
def execByteUpdate (acc : Word) (b : Byte) (s : State) : Result :=
  .next { s with dpOut := byteUpdate s.table acc b }

/-- COMPUTE (R123): `C = 0`. -/
def execCompute (s : State) : Result := .next (startCommand false s)

/-- COMPUTE_COPY (R124): `C = 1`. -/
def execComputeCopy (s : State) : Result := .next (startCommand true s)

/-- RD_RESP (R126): enabled in `RDWAIT` with `n ≤ BUF_SIZE`. -/
def execRdResp (b : List Byte) (s : State) : Result :=
  whenEnabled (decide (s.phase = .rdwait) && decide (b.length ≤ s.cfg.bufSize))
    (routeChunk b.length (storeChunk b (logInput (.data b) s)))

/-- WR_ACK (R127). -/
def execWrAck (s : State) : Result :=
  whenEnabled (decide (s.phase = .wrwait)) { logSinkAnswer .ack s with phase := .proc }

/-- CHUNK (R128): count, fold `BUF[0]` first, read again. -/
def execChunk (s : State) : Result :=
  whenEnabled (decide (s.phase = .proc) && decide (s.buflen ≠ 0#32))
    { s with
      count := s.count + s.buflen.setWidth 64
      acc := fold s.table s.acc (chunkBytes s)
      phase := .rdwait }

/-- FINISH (R129). `COUNT + 0` is `COUNT`. -/
def execFinish (s : State) : Result :=
  whenEnabled (decide (s.phase = .proc) && decide (s.buflen = 0#32))
    { s with result := ~~~ s.acc, done := true, phase := .idle }

end Sys2Proof.Machine
end

