-- ==== Sys2Proof/Machine/TableGen.lean ====
section
/-!
DEFINITION. The meanings of REDUCE_STEP, REDUCE8 and TBL_GEN (40_table_generator.md R100, R101, R103). The value of a
datapath row goes to the model's own field `dpOut` (DESIGN CHOICE, log entry 7): "Writes: nothing; a pure function".
-/

namespace Sys2Proof.Machine

/-- REDUCE_STEP(v) (R100). -/
def execReduceStep (v : Word) (s : State) : Result := .next { s with dpOut := reduceStep v }

/-- REDUCE8(i) (R101). -/
def execReduce8 (i : Byte) (s : State) : Result := .next { s with dpOut := reduce8 i }

/-- TBL_GEN (R103), one atomic step. -/
def execTblGen (s : State) : Result :=
  whenEnabled (decide (s.phase = .tblgen)) { s with table := crcTable, tblrdy := true, phase := .idle }

end Sys2Proof.Machine
end

