-- ==== Sys2Proof/Machine/Dispatch.lean ====
section
/-!
DEFINITION. The meaning of every instruction: one arm per row of spec/opcode_table.json.
-/

namespace Sys2Proof.Machine

def exec (i : Instr) (s : State) : Host.Outcome State Fault Refusal :=
  match i with
  | .compute => Sys2Proof.Machine.execCompute s
  | .computeCopy => Sys2Proof.Machine.execComputeCopy s
  | .cmdIllegal w => Sys2Proof.Machine.execCmdIllegal w s
  | .rdStatus => Sys2Proof.Machine.execRdStatus s
  | .rdResult => Sys2Proof.Machine.execRdResult s
  | .rdCountLo => Sys2Proof.Machine.execRdCountLo s
  | .rdCountHi => Sys2Proof.Machine.execRdCountHi s
  | .rdErrinfo => Sys2Proof.Machine.execRdErrinfo s
  | .rdTable k => Sys2Proof.Machine.execRdTable k s
  | .busIllegal a => Sys2Proof.Machine.execBusIllegal a s
  | .tblGen => Sys2Proof.Machine.execTblGen s
  | .rdResp b => Sys2Proof.Machine.execRdResp b s
  | .rdLenerr b => Sys2Proof.Machine.execRdLenerr b s
  | .rdErr e => Sys2Proof.Machine.execRdErr e s
  | .wrAck => Sys2Proof.Machine.execWrAck s
  | .wrErr e => Sys2Proof.Machine.execWrErr e s
  | .chunk => Sys2Proof.Machine.execChunk s
  | .finish => Sys2Proof.Machine.execFinish s
  | .reset => Sys2Proof.Machine.execReset s
  | .reduceStep v => Sys2Proof.Machine.execReduceStep v s
  | .reduce8 k => Sys2Proof.Machine.execReduce8 k s
  | .byteUpdate acc b => Sys2Proof.Machine.execByteUpdate acc b s

end Sys2Proof.Machine
end

