-- ==== Sys2Proof/Machine/Step.lean ====
section
/-!
DEFINITION. One step of the machine (20_memory.md R71): the agents' next event, decoded in the state it finds
(30_encoding.md R86, R87), is executed. DESIGN CHOICE (log entries 4, 5 and 19).
-/

namespace Sys2Proof.Machine

/-- One step. Where no agent has an event to come and no core step is enabled, the run is stuck
(70_reset_and_hazards.md R223); an agent's event that selects no step is not admitted (30_encoding.md R87, R212). -/
def step (s : State) : Host.Outcome State Fault Refusal :=
  match decode (decodeCtx s) (transactionOf (nextEvent s) s.phase) with
  | .instr i => exec i s.takeEvent
  | .reject r => if s.upcoming.isEmpty then .fault .stuck else .refused (.notAdmitted r)

/-- `s` with the instruction of a table word as the next one: its event is put first on the agenda; a selector's phase
bits are put into `PHASE`; `BUFLEN` is zero where the selector's extra condition asks for it (log entry 5). -/
def State.withFetchWord (s : State) (nbits w : Nat) : State :=
  match eventOfTableWord nbits w with
  | (ev, none) => { s with agenda := ev :: s.agenda }
  | (ev, some p) =>
    { s with
      agenda := ev :: s.agenda
      phase := p
      buflen := if p = .proc then 0#32 else s.buflen }

end Sys2Proof.Machine
end

