-- ==== Sys2Proof/Machine/Assembler.lean ====
section
/-!
DEFINITION. The host program syntax and the pseudo-instructions (30_encoding.md R90, R91) as the events they put on the
block's ports. The host's scratch variables `h0..h7`, its labels and its branches are the host's, not the block's
(log entry 17).
-/

namespace Sys2Proof.Machine

/-- One line of a host program (R90). `k` names the host variable that `LW` fills; no access carries it. -/
inductive HostLine where
  | sw (addr : Addr) (imm : Word)
  | lw (k : Fin 8) (addr : Addr)
deriving DecidableEq, Repr

/-- The named addresses of R90, from the map of R84. -/
inductive RegName where
  | cmd
  | status
  | result
  | countLo
  | countHi
  | errinfo
  | table (i : Byte)
deriving DecidableEq, Repr

/-- The address of a name (R84, R90). -/
def regAddr : RegName → Addr
  | .cmd => 0x000#12
  | .status => 0x004#12
  | .result => 0x008#12
  | .countLo => 0x00C#12
  | .countHi => 0x010#12
  | .errinfo => 0x014#12
  | .table i => tableAddr i

/-- The bus access of a line (R90, column "encoding"). -/
def lineAccess : HostLine → HostAccess
  | .sw a imm => .write a imm
  | .lw _ a => .read a

/-- The pseudo-instructions (R91). -/
inductive Pseudo where
  | compute
  | computeCopy
  | waitIdle
  | rdCount (a b : Fin 8)
  | crc32 (k : Fin 8)
deriving DecidableEq, Repr

/-- The lines of `WAITIDLE` that repeats its poll `repeats` times: "The number of repetitions is not bounded by the
block" (R91), so it is an argument (log entry 17). -/
def waitIdleLines (repeats : Nat) : List HostLine := List.replicate (repeats + 1) (.lw 7 (regAddr .status))

/-- The expansions of R91, for a `WAITIDLE` that repeats its poll `repeats` times. -/
def expandPseudo (repeats : Nat) : Pseudo → List HostLine
  | .compute => [.sw (regAddr .cmd) 0x00000001#32]
  | .computeCopy => [.sw (regAddr .cmd) 0x00000011#32]
  | .waitIdle => waitIdleLines repeats
  | .rdCount a b => [.lw a (regAddr .countLo), .lw b (regAddr .countHi)]
  | .crc32 k => .sw (regAddr .cmd) 0x00000001#32 :: (waitIdleLines repeats ++ [.lw k (regAddr .result)])

/-- `WAITIDLE` repeats its poll "while `h7[10:8] ≠ 0`" and "ends when `PHASE = IDLE`" (R91): the poll's value ends it. -/
def waitIdleEnds (h7 : Word) : Bool := decide (h7.extractLsb' 8 3 = 0#3)

/-- An item of an `IN:` script (R90). -/
inductive InItem where
  | chunk (b : List Byte)
  | eos
  | err (e : Word)
deriving DecidableEq, Repr

/-- The input agent's event for an item: `EOS` is `Data(0, [])` (R90). -/
def inItemEvent : InItem → Event
  | .chunk b => .inData b
  | .eos => .inData []
  | .err e => .inErr e

/-- The sink agent's event for an item of a `SINK:` script (R90). -/
def sinkItemEvent : SinkAnswer → Event
  | .ack => .sinkAck
  | .err e => .sinkErr e

end Sys2Proof.Machine
end

