-- ==== Sys2Proof/Safety.lean ====
section
/-!
DEFINITION. The terms the claims are stated in: the invariants of 10_state.md R39, what else holds of every reachable
state, what a computation has folded so far, and the schedule of one whole computation.
-/

namespace Sys2Proof.Machine

/-- The invariants of R39, (a) to (g), in its order. -/
structure BlockInv (s : State) : Prop where
  tblrdyIff : s.tblrdy = false ↔ s.phase = .tblgen
  doneNoIoerr : s.done = true → s.ioerr = false
  busyNoFlags : busy s = true → s.done = false ∧ s.ioerr = false
  wrwaitCopy : s.phase = .wrwait → s.copy = true
  buflenFits : s.phase = .wrwait ∨ s.phase = .proc → s.buflen.toNat ≤ s.cfg.bufSize
  perrCause : s.perr = false → s.pcause = .noError
  phaseLegal : (phaseCode s.phase).toNat < 5

/-- `BUF` has `BUF_SIZE` bytes (10_state.md R27), the parameters are legal (00_scope.md R7), and a ready table holds the
values of R104 (10_state.md R34). -/
structure Shape (s : State) : Prop where
  cfgLegal : s.cfg.wf = true
  bufSize : s.buf.length = s.cfg.bufSize
  tableReady : s.tblrdy = true → s.table = crcTable

/-- `SINKLOG` (10_state.md R40) and `PHASE` agree on the outstanding write: in `WRWAIT` the last entry is the
outstanding `SinkWrite(BUFLEN, BUF[0..BUFLEN-1])`, not answered yet (R22). -/
def SinkLogAgrees (s : State) : Prop :=
  s.phase = .wrwait →
    ∃ before, s.sinklog = before ++ [{ n := s.buflen, bytes := chunkBytes s, answer := none }]

/-- The number of bytes of a list of chunks. -/
def totalBytes (cs : List (List Byte)) : Nat := cs.flatten.length

/-- `ACC` and `COUNT` stand for the chunks `cs`, folded from START on (41_stream_accumulator.md R122, R128). -/
def Folded (cs : List (List Byte)) (s : State) : Prop :=
  s.acc = fold crcTable Config.init cs.flatten ∧ s.count = BitVec.ofNat 64 (totalBytes cs)

/-- `s` is in a computation that began when `INLOG` was `base` and whose data answers so far are `cs`. In `RDWAIT` all
of them are folded; in `WRWAIT` and `PROC` the last one is in `BUF` and not yet folded (20_memory.md R72). -/
def Tracks (base : List InAnswer) (cs : List (List Byte)) (s : State) : Prop :=
  s.inlog = base ++ cs.map InAnswer.data ∧
    match s.phase with
    | .idle => False
    | .tblgen => False
    | .rdwait => Folded cs s
    | .wrwait => ∃ before, cs = before ++ [chunkBytes s] ∧ Folded before s
    | .proc => ∃ before, cs = before ++ [chunkBytes s] ∧ Folded before s

/-! ## A whole computation

The schedule of one computation that meets no error: the input agent answers the chunks and then end of stream, the
sink acknowledges every write, the core takes its steps. Host accesses may come anywhere before the last event. -/

/-- The sink's acknowledgement of a write of `n` bytes, where one is issued (41_stream_accumulator.md R125). -/
def ackIfWritten (copy skip : Bool) (n : Nat) : List Event :=
  if copy && !(skip && decide (n = 0)) then [.sinkAck] else []

/-- The events of one chunk: the input's answer, the sink's where a write is issued, the core's step (20_memory.md
R72). -/
def chunkEvents (copy skip : Bool) (c : List Byte) : List Event :=
  .inData c :: (ackIfWritten copy skip c.length ++ [.internal])

/-- The events of the chunks `cs`, one after the other, without end of stream. -/
def streamEvents (copy skip : Bool) (cs : List (List Byte)) : List Event := (cs.map (chunkEvents copy skip)).flatten

/-- The events after the command of a computation over the chunks `cs` (R132). -/
def bodyEvents (copy skip : Bool) (cs : List (List Byte)) : List Event :=
  streamEvents copy skip cs ++ chunkEvents copy skip []

/-- The write of the command word (30_encoding.md R82). -/
def startEvent (copy : Bool) : Event := .host (.write 0x000#12 (if copy then 0x00000011#32 else 0x00000001#32))

/-- Not a host access. -/
def notHost : Event → Bool
  | .host _ => false
  | .internal => true
  | .inData _ => true
  | .inErr _ => true
  | .sinkAck => true
  | .sinkErr _ => true
  | .reset => true
  | .reserved => true

/-- `evs` is a schedule of the computation over `cs` after its command: less the host accesses among them its events
are `bodyEvents`, and the last one is the core's (which is FINISH). -/
def IsSchedule (copy skip : Bool) (cs : List (List Byte)) (evs : List Event) : Prop :=
  evs.filter notHost = bodyEvents copy skip cs ∧ evs.getLast? = some .internal

/-- Chunks the input agent may return before end of stream: `1 ≤ |c| ≤ BUF_SIZE` (R132). -/
def ChunksFit (c : Config) (cs : List (List Byte)) : Prop := ∀ b ∈ cs, 1 ≤ b.length ∧ b.length ≤ c.bufSize

/-! ## CRC-32 bit by bit, without a table -/

/-- One message bit into the register: the reflected polynomial division that R121 says the table computes. -/
def bitStep (r : Word) (x : Bool) : Word :=
  if (r.getLsbD 0 ^^ x) = true then (r >>> 1) ^^^ 0xEDB88320#32 else r >>> 1

/-- The bits of a byte, least significant first (20_memory.md R64). -/
def bitsLsbFirst (b : Byte) : List Bool := (List.range 8).map b.getLsbD

/-- The division over a byte sequence, started from all ones and complemented at the end (00_scope.md R2). -/
def bitSerialCrc (bs : List Byte) : Word := ~~~ (bs.flatMap bitsLsbFirst).foldl bitStep 0xFFFFFFFF#32

end Sys2Proof.Machine
end

