-- ==== Sys2Proof/Certificates/Slice0/Obligations.lean ====
section
/-!
DEFINITION. The statements for the provers. An equation `exec i s = .next { s with … }` says the result, the frame
(every field not named stays) and that the instruction completes. "Has no step" (30_encoding.md R87) is the refusal
`notEnabled` or `notAdmitted` (log entry 9, DEDUCED), and the order of the agents' events is the agenda (log entry 4,
DESIGN CHOICE).
-/

open Sys2Proof Sys2Proof.Machine

/-! ## The reducer, the table, the byte update -/

/-- R100: the formula for every value, and the corner case "The result's bit 31 is `v[0]`". -/
def Obligations.ReduceStepShiftsAndXors : Prop :=
  ∀ v : Word,
    reduceStep v = (if v.getLsbD 0 = true then (v >>> 1) ^^^ 0xEDB88320#32 else v >>> 1) ∧
    (reduceStep v).getLsbD 31 = v.getLsbD 0

/-- R101: zero-extend the byte, eight iterations of REDUCE_STEP; the corner cases. -/
def Obligations.Reduce8RunsEightSteps : Prop :=
  (∀ i : Byte, reduce8 i = reduceStep^[8] (i.setWidth 32)) ∧
  reduce8 0x00#8 = 0x00000000#32 ∧ reduce8 0x80#8 = 0xEDB88320#32 ∧ reduce8 0xFF#8 = 0x2D02EF8D#32 ∧
  reduce8 0x01#8 = 0x77073096#32

/-- R102: (a) linearity of REDUCE_STEP, REDUCE8 and TABLE, (b), (c) the top bytes are a bijection, (d) the eight
entries at the powers of two, and that a linear table is fixed by those entries. -/
def Obligations.ReducerLaws : Prop :=
  (∀ a b : Word, reduceStep (a ^^^ b) = reduceStep a ^^^ reduceStep b) ∧
  (∀ a b : Byte, reduce8 (a ^^^ b) = reduce8 a ^^^ reduce8 b) ∧
  (∀ a b : Byte, tableAt crcTable (a ^^^ b) = tableAt crcTable a ^^^ tableAt crcTable b) ∧
  reduce8 0#8 = 0#32 ∧
  Function.Bijective (fun i : Byte => (reduce8 i).extractLsb' 24 8) ∧
  ([0x01#8, 0x02#8, 0x04#8, 0x08#8, 0x10#8, 0x20#8, 0x40#8, 0x80#8].map (tableAt crcTable) =
    [0x77073096#32, 0xEE0E612C#32, 0x076DC419#32, 0x0EDB8832#32, 0x1DB71064#32, 0x3B6E20C8#32, 0x76DC4190#32,
      0xEDB88320#32]) ∧
  (∀ t u : Table, (∀ a b : Byte, tableAt t (a ^^^ b) = tableAt t a ^^^ tableAt t b) →
    (∀ a b : Byte, tableAt u (a ^^^ b) = tableAt u a ^^^ tableAt u b) →
    (∀ k : Nat, k < 8 → tableAt t (BitVec.ofNat 8 (2 ^ k)) = tableAt u (BitVec.ofNat 8 (2 ^ k))) → t = u)

/-- R104: after TBL_GEN, and after power-up or RESET with `TABLE_IMPL = ROM`, every entry is `REDUCE8(i)`, which is the
value the rule lists. -/
def Obligations.TableHoldsTheListedValues : Prop :=
  (∀ s t : State, exec .tblGen s = .next t → ∀ i, tableAt t.table i = reduce8 i) ∧
  (∀ c : Config, c.tableImpl = .rom → ∀ i, tableAt (powerUp c).table i = reduce8 i) ∧
  (∀ s t : State, s.cfg.tableImpl = .rom → exec .reset s = .next t → ∀ i, tableAt t.table i = reduce8 i) ∧
  listedTable.length = 256 ∧ ∀ i : Byte, listedTable[i.toNat]? = some (reduce8 i)

/-- R120: the formula for every table, accumulator and byte; the corner case `b = acc[7:0]`. -/
def Obligations.ByteUpdateFormula : Prop :=
  (∀ (t : Table) (acc : Word) (b : Byte),
    byteUpdate t acc b = (acc >>> 8) ^^^ tableAt t (b ^^^ acc.extractLsb' 0 8)) ∧
  ∀ (acc : Word) (b : Byte), b = acc.extractLsb' 0 8 → byteUpdate crcTable acc b = acc >>> 8

/-- R121: the table-driven update is eight reducer steps on the accumulator with the byte exclusive-ored in. -/
def Obligations.ByteUpdateIsEightReducerSteps : Prop :=
  ∀ (acc : Word) (b : Byte), byteUpdate crcTable acc b = reduceStep^[8] (acc ^^^ b.setWidth 32)

/-- R122: the equations of FOLD and CRC, and FOLD over a concatenation. -/
def Obligations.FoldOverConcatenation : Prop :=
  (∀ (t : Table) (acc : Word), fold t acc [] = acc) ∧
  (∀ (t : Table) (acc : Word) (b : Byte) (r : List Byte), fold t acc (b :: r) = fold t (byteUpdate t acc b) r) ∧
  (∀ bs : List Byte, crc bs = ~~~ fold crcTable 0xFFFFFFFF#32 bs) ∧
  ∀ (t : Table) (acc : Word) (u v : List Byte), fold t acc (u ++ v) = fold t (fold t acc u) v

/-- The whole CRC equals the bit-by-bit reflected division, least significant bit of each byte first (R64, R121,
R122). -/
def Obligations.CrcIsBitSerialDivision : Prop := ∀ bs : List Byte, crc bs = bitSerialCrc bs

/-- The three check values of R145 (95_test_vectors.md L1.8 to L1.10). -/
def Obligations.CrcCheckValues : Prop :=
  crc [] = 0x00000000#32 ∧
  crc [0x31, 0x32, 0x33, 0x34, 0x35, 0x36, 0x37, 0x38, 0x39] = 0xCBF43926#32 ∧
  crc [0x54, 0x68, 0x65, 0x20, 0x71, 0x75, 0x69, 0x63, 0x6B, 0x20, 0x62, 0x72, 0x6F, 0x77, 0x6E, 0x20, 0x66, 0x6F,
    0x78, 0x20, 0x6A, 0x75, 0x6D, 0x70, 0x73, 0x20, 0x6F, 0x76, 0x65, 0x72, 0x20, 0x74, 0x68, 0x65, 0x20, 0x6C, 0x61,
    0x7A, 0x79, 0x20, 0x64, 0x6F, 0x67] = 0x414FA339#32

/-- The three datapath rows complete in every state and change nothing of the block. That their value stands in the
model's own field `dpOut` is the model's choice (log entry 7). -/
def Obligations.DatapathRowsChangeNoBlockState : Prop :=
  ∀ (s : State) (v acc : Word) (i b : Byte),
    exec (.reduceStep v) s = .next { s with dpOut := reduceStep v } ∧
    exec (.reduce8 i) s = .next { s with dpOut := reduce8 i } ∧
    exec (.byteUpdate acc b) s = .next { s with dpOut := byteUpdate s.table acc b }

/-- R103: TBL_GEN's selector, effect and frame; it has no step outside `TBLGEN`; no step but RESET with
`TABLE_IMPL = GENERATE` leads into `TBLGEN`, so it runs once per reset. -/
def Obligations.TblGenFillsTheTableOnce : Prop :=
  (∀ c : DecodeCtx, decode c (.fsm 0b000001#6 .empty) = .instr .tblGen) ∧
  (∀ s : State, s.phase = .tblgen →
    exec .tblGen s = .next { s with table := tableOf reduce8, tblrdy := true, phase := .idle }) ∧
  (∀ s : State, s.phase ≠ .tblgen → exec .tblGen s = .refused .notEnabled) ∧
  (∀ (i : Instr) (s t : State), exec i s = .next t → t.phase = .tblgen → s.phase = .tblgen ∨ i = .reset) ∧
  (∀ s t : State, exec .reset s = .next t → (t.phase = .tblgen ↔ s.cfg.tableImpl = .generate))

/-- R24: no instruction but TBL_GEN (and the reset that starts a new instance) writes TABLE, and only a reset enables
TBL_GEN again. -/
def Obligations.TableIsNeverWrittenAgain : Prop :=
  (∀ (i : Instr) (s t : State), exec i s = .next t → i ≠ .tblGen → i ≠ .reset → t.table = s.table) ∧
  (∀ (i : Instr) (s t : State), exec i s = .next t → i ≠ .reset → s.tblrdy = true → s.phase ≠ .tblgen →
    t.tblrdy = true ∧ t.phase ≠ .tblgen ∧ t.table = s.table)

/-! ## Commands -/

/-- R82: the two legal command words; every other word of a `CMD` write is illegal. -/
def Obligations.ExactlyTwoCommandWords : Prop :=
  decodeHost (.write 0x000#12 0x00000001#32) = .compute ∧
  decodeHost (.write 0x000#12 0x00000011#32) = .computeCopy ∧
  ∀ w : Word, w ≠ 0x00000001#32 → w ≠ 0x00000011#32 →
    decodeHost (.write 0x000#12 w) = .cmdIllegal w ∧ (w.extractLsb' 0 4 ≠ 0x1#4 ∨ w.extractLsb' 5 27 ≠ 0#27)

/-- R123: COMPUTE's command word; its effect in `IDLE`; the rejection in every other phase. -/
def Obligations.ComputeStartsWithoutSink : Prop :=
  decodeHost (.write 0x000#12 0x00000001#32) = .compute ∧
  ∀ s : State,
    (s.phase = .idle → exec .compute s = .next { s with
      acc := 0xFFFFFFFF#32, count := 0#64, copy := false, done := false, ioerr := false, errsrc := .inErr,
      errinfo := 0x00000000#32, phase := .rdwait }) ∧
    (s.phase = .tblgen → exec .compute s = .next { s with
      perr := true, pcause := if s.perr = true then s.pcause else .cmdTblgen }) ∧
    (s.phase ≠ .idle → s.phase ≠ .tblgen → exec .compute s = .next { s with
      perr := true, pcause := if s.perr = true then s.pcause else .cmdBusy })

/-- R124: COMPUTE_COPY's command word; as COMPUTE, except `COPY <- 1`. -/
def Obligations.ComputeCopyStartsWithSink : Prop :=
  decodeHost (.write 0x000#12 0x00000011#32) = .computeCopy ∧
  ∀ s : State,
    (s.phase = .idle → exec .computeCopy s = .next { s with
      acc := 0xFFFFFFFF#32, count := 0#64, copy := true, done := false, ioerr := false, errsrc := .inErr,
      errinfo := 0x00000000#32, phase := .rdwait }) ∧
    (s.phase = .tblgen → exec .computeCopy s = .next { s with
      perr := true, pcause := if s.perr = true then s.pcause else .cmdTblgen }) ∧
    (s.phase ≠ .idle → s.phase ≠ .tblgen → exec .computeCopy s = .next { s with
      perr := true, pcause := if s.perr = true then s.pcause else .cmdBusy })

/-! ## The steps of a computation -/

/-- R125: when the mux is enabled the block issues exactly the bytes the read returned, in order, and waits; otherwise
no sink transaction happens. What SINKLOG records of it is stated in LogsRecordThePortTransactions. -/
def Obligations.MuxSendsExactlyTheChunk : Prop :=
  ∀ (s : State) (b : List Byte), s.cfg.wf = true → s.phase = .rdwait → b.length ≤ s.cfg.bufSize →
    ∃ t, exec (.rdResp b) s = .next t ∧
      (s.copy = true ∧ ¬ (s.cfg.skipZeroLenWrite = true ∧ b.length = 0) →
        t.phase = .wrwait ∧ outstanding t = some (.sinkWrite (BitVec.ofNat 32 b.length) b)) ∧
      (¬ (s.copy = true ∧ ¬ (s.cfg.skipZeroLenWrite = true ∧ b.length = 0)) →
        t.phase = .proc ∧ outstanding t = none)

/-- R126: RD_RESP writes `BUF[0..n-1]`, `BUFLEN` and `PHASE`; every byte of `BUF` from `n` on reads as before; nothing
else of the block changes (for the logs, see LogsRecordThePortTransactions). It has no step outside `RDWAIT` or with `n > BUF_SIZE`. -/
def Obligations.RdRespStoresTheChunk : Prop :=
  (∀ (c : DecodeCtx) (b : List Byte), b.length ≤ c.bufSize →
    decode c (.fsm 0b001010#6 (.data b)) = .instr (.rdResp b)) ∧
  (∀ (s : State) (b : List Byte), s.cfg.wf = true → s.phase = .rdwait → b.length ≤ s.cfg.bufSize →
    ∃ t, exec (.rdResp b) s = .next t ∧
      t.buflen.toNat = b.length ∧
      (∀ j, j < b.length → bufByte t j = b[j]?) ∧
      (∀ j, b.length ≤ j → bufByte t j = bufByte s j) ∧
      t.phase = (if s.copy = true ∧ ¬ (s.cfg.skipZeroLenWrite = true ∧ b.length = 0) then .wrwait else .proc) ∧
      t = { s with
        buf := t.buf, buflen := t.buflen, phase := t.phase, inlog := t.inlog, sinklog := t.sinklog }) ∧
  (∀ (s : State) (b : List Byte), s.phase ≠ .rdwait ∨ s.cfg.bufSize < b.length →
    exec (.rdResp b) s = .refused .notEnabled)

/-- R127: `PHASE <- PROC`, and nothing else of the block changes; the core's own step is then FINISH after a zero-length
write and CHUNK after any other. What SINKLOG records is stated in LogsRecordThePortTransactions. -/
def Obligations.WrAckLeadsToProc : Prop :=
  (∀ c : DecodeCtx, decode c (.fsm 0b011011#6 .empty) = .instr .wrAck) ∧
  (∀ s : State, s.phase = .wrwait → ∃ t, exec .wrAck s = .next t ∧
    t = { s with phase := .proc, sinklog := t.sinklog } ∧
    (s.buflen = 0#32 → decode (decodeCtx t) (transactionOf .internal t.phase) = .instr .finish) ∧
    (s.buflen ≠ 0#32 → decode (decodeCtx t) (transactionOf .internal t.phase) = .instr .chunk)) ∧
  ∀ s : State, s.phase ≠ .wrwait → exec .wrAck s = .refused .notEnabled

/-- R128: CHUNK adds `BUFLEN` modulo 2^64, folds `BUF[0..BUFLEN-1]` and reads again. -/
def Obligations.ChunkCountsAndFolds : Prop :=
  (∀ c : DecodeCtx, c.buflen ≠ 0#32 → decode c (.fsm 0b000100#6 .empty) = .instr .chunk) ∧
  (∀ s : State, s.phase = .proc → s.buflen ≠ 0#32 →
    ∃ t, exec .chunk s = .next t ∧
      t.count.toNat = (s.count.toNat + s.buflen.toNat) % 2 ^ 64 ∧
      t = { s with
        count := t.count, acc := fold s.table s.acc (s.buf.take s.buflen.toNat), phase := .rdwait }) ∧
  ∀ s : State, s.phase ≠ .proc ∨ s.buflen = 0#32 → exec .chunk s = .refused .notEnabled

/-- R129: FINISH writes `RESULT`, `DONE` and `PHASE`. -/
def Obligations.FinishPublishesTheComplement : Prop :=
  (∀ c : DecodeCtx, c.buflen = 0#32 → decode c (.fsm 0b000100#6 .empty) = .instr .finish) ∧
  (∀ s : State, s.phase = .proc → s.buflen = 0#32 →
    exec .finish s = .next { s with result := 0xFFFFFFFF#32 ^^^ s.acc, done := true, phase := .idle }) ∧
  ∀ s : State, s.phase ≠ .proc ∨ s.buflen ≠ 0#32 → exec .finish s = .refused .notEnabled

/-- R183: RD_ERR aborts with the input's error word unchanged. What INLOG records is stated in
LogsRecordThePortTransactions. -/
def Obligations.InputErrorAborts : Prop :=
  (∀ (c : DecodeCtx) (e : Word), decode c (.fsm 0b010010#6 (.err e)) = .instr (.rdErr e)) ∧
  (∀ (s : State) (e : Word), s.phase = .rdwait → ∃ t, exec (.rdErr e) s = .next t ∧
    t = { s with ioerr := true, errsrc := .inErr, errinfo := e, phase := .idle, inlog := t.inlog }) ∧
  ∀ (s : State) (e : Word), s.phase ≠ .rdwait → exec (.rdErr e) s = .refused .notEnabled

/-- R184: RD_LENERR aborts with the offending length; no byte is stored. `n = BUF_SIZE` is legal, `n = BUF_SIZE + 1` is
the smallest that raises it. What INLOG records is stated in LogsRecordThePortTransactions. -/
def Obligations.InputLengthViolationAborts : Prop :=
  (∀ (c : DecodeCtx) (b : List Byte), c.bufSize < b.length → b.length < 2 ^ 32 →
    decode c (.fsm 0b001010#6 (.data b)) = .instr (.rdLenerr b)) ∧
  (∀ (s : State) (b : List Byte), s.phase = .rdwait → s.cfg.bufSize < b.length → b.length < 2 ^ 32 →
    ∃ t, exec (.rdLenerr b) s = .next t ∧
      t.errinfo.toNat = b.length ∧
      t = { s with ioerr := true, errsrc := .inLen, errinfo := t.errinfo, phase := .idle, inlog := t.inlog }) ∧
  ∀ (s : State) (b : List Byte), s.phase ≠ .rdwait ∨ b.length ≤ s.cfg.bufSize →
    exec (.rdLenerr b) s = .refused .notEnabled

/-- R185: WR_ERR aborts with the sink's error word unchanged; the chunk in `BUF` is neither counted nor folded.
What SINKLOG records is stated in LogsRecordThePortTransactions. -/
def Obligations.SinkErrorAborts : Prop :=
  (∀ (c : DecodeCtx) (e : Word), decode c (.fsm 0b100011#6 (.err e)) = .instr (.wrErr e)) ∧
  (∀ (s : State) (e : Word), s.phase = .wrwait → ∃ t, exec (.wrErr e) s = .next t ∧
    t = { s with ioerr := true, errsrc := .sinkErr, errinfo := e, phase := .idle, sinklog := t.sinklog }) ∧
  ∀ (s : State) (e : Word), s.phase ≠ .wrwait → exec (.wrErr e) s = .refused .notEnabled

/-- R188: what `COUNT`, `ACC` and `RESULT` hold after an I/O error in a computation whose data answers so far are `cs`: a failed
read adds nothing to the chunks folded, and a failed sink write leaves its own chunk out. -/
def Obligations.CountAfterAnIoError : Prop :=
  (∀ (base : List InAnswer) (cs : List (List Byte)) (s t : State) (e : Word), Tracks base cs s →
    exec (.rdErr e) s = .next t →
    t.count = BitVec.ofNat 64 (totalBytes cs) ∧ t.acc = fold crcTable 0xFFFFFFFF#32 cs.flatten ∧
    t.result = s.result) ∧
  (∀ (base : List InAnswer) (cs : List (List Byte)) (s t : State) (b : List Byte), Tracks base cs s →
    exec (.rdLenerr b) s = .next t →
    t.count = BitVec.ofNat 64 (totalBytes cs) ∧ t.acc = fold crcTable 0xFFFFFFFF#32 cs.flatten ∧
    t.result = s.result) ∧
  (∀ (base : List InAnswer) (cs : List (List Byte)) (s t : State) (e : Word), Tracks base cs s →
    exec (.wrErr e) s = .next t →
    t.count = BitVec.ofNat 64 (totalBytes cs.dropLast) ∧
    t.acc = fold crcTable 0xFFFFFFFF#32 cs.dropLast.flatten ∧
    cs.getLast? = some (chunkBytes s) ∧ t.result = s.result)

/-! ## Host accesses -/

/-- R161: every field of `STATUS` at its place, reserved bits 0; nothing but `RDATA` changes; a write to its address is
`BUS_RO_WRITE`. The codes of the coded fields are those of R22 and R181. -/
def Obligations.StatusReadShowsEveryField : Prop :=
  decodeHost (.read 0x004#12) = .rdStatus ∧
  (∀ (s : State) (w : Word), exec (decodeHost (.write 0x004#12 w)) s = .next { s with
    perr := true, pcause := if s.perr = true then s.pcause else .busRoWrite }) ∧
  (∀ s : State, ∃ v : Word, exec .rdStatus s = .next { s with rdata := v } ∧
    v.getLsbD 0 = decide (s.phase = .rdwait ∨ s.phase = .wrwait ∨ s.phase = .proc) ∧
    v.getLsbD 1 = s.done ∧ v.getLsbD 2 = s.ioerr ∧ v.extractLsb' 3 2 = errSrcCode s.errsrc ∧
    v.getLsbD 5 = s.perr ∧ v.getLsbD 6 = s.tblrdy ∧ v.getLsbD 7 = s.copy ∧ v.extractLsb' 8 3 = phaseCode s.phase ∧
    v.getLsbD 11 = false ∧ v.extractLsb' 12 4 = pcauseCode s.pcause ∧ v.extractLsb' 16 16 = 0#16) ∧
  [Phase.idle, .tblgen, .rdwait, .wrwait, .proc].map phaseCode = [0#3, 1#3, 2#3, 3#3, 4#3] ∧
  [ErrSrc.inErr, .sinkErr, .inLen].map errSrcCode = [0#2, 1#2, 2#2] ∧
  [PCause.noError, .cmdBusy, .cmdTblgen, .cmdIllegal, .busRoWrite, .busUnmapped, .busMisaligned, .busWoRead,
    .tblNotReady].map pcauseCode = [0#4, 1#4, 2#4, 3#4, 4#4, 5#4, 6#4, 7#4, 8#4]

/-- R162 to R165: the four plain reads, in every phase; the two counter halves make up `COUNT`. -/
def Obligations.PlainRegisterReads : Prop :=
  (∀ s : State,
    exec .rdResult s = .next { s with rdata := s.result } ∧
    exec .rdCountLo s = .next { s with rdata := s.count.extractLsb' 0 32 } ∧
    exec .rdCountHi s = .next { s with rdata := s.count.extractLsb' 32 32 } ∧
    exec .rdErrinfo s = .next { s with rdata := s.errinfo }) ∧
  decodeHost (.read 0x008#12) = .rdResult ∧ decodeHost (.read 0x00C#12) = .rdCountLo ∧
  decodeHost (.read 0x010#12) = .rdCountHi ∧ decodeHost (.read 0x014#12) = .rdErrinfo ∧
  ∀ c : BitVec 64, c.extractLsb' 32 32 ++ c.extractLsb' 0 32 = c

/-- R166: a ready table's entry `i`, at address `0x400 + 4·i`; `TBL_NOT_READY` before; a write to the window is
`BUS_RO_WRITE`. -/
def Obligations.TableReadReturnsTheEntry : Prop :=
  (∀ (s : State) (i : Byte), s.tblrdy = true →
    exec (.rdTable i) s = .next { s with rdata := tableAt s.table i }) ∧
  (∀ (s : State) (i : Byte), s.tblrdy = false →
    exec (.rdTable i) s = .next { s with
      rdata := 0x00000000#32, perr := true, pcause := if s.perr = true then s.pcause else .tblNotReady }) ∧
  (∀ (i : Byte) (a : Addr), a.toNat = 0x400 + 4 * i.toNat → decodeHost (.read a) = .rdTable i) ∧
  (∀ (s : State) (i : Byte) (a : Addr) (w : Word), a.toNat = 0x400 + 4 * i.toNat →
    exec (decodeHost (.write a w)) s = .next { s with
      perr := true, pcause := if s.perr = true then s.pcause else .busRoWrite })

/-- R186: a rejected access changes `PERR` and `PCAUSE` only, and a rejected read returns 0; and this is what the two
catch-all rows do, on every operand that is theirs. -/
def Obligations.IllegalAccessesAreRejected : Prop :=
  (∀ (s : State) (a : Addr) (c : PCause), rejectAccess (.read a) c s = { s with
    rdata := 0x00000000#32, perr := true, pcause := if s.perr = true then s.pcause else c }) ∧
  (∀ (s : State) (a : Addr) (w : Word) (c : PCause), rejectAccess (.write a w) c s = { s with
    perr := true, pcause := if s.perr = true then s.pcause else c }) ∧
  (∀ (s : State) (w : Word), w ≠ 0x00000001#32 → w ≠ 0x00000011#32 →
    exec (.cmdIllegal w) s = .next { s with
      perr := true, pcause := if s.perr = true then s.pcause else .cmdIllegal }) ∧
  (∀ (s : State) (a : Addr), HostAccess.illegal (.read a) = true →
    ∃ c, busCause (.read a) = some c ∧ exec (.busIllegal (.read a)) s = .next { s with
      rdata := 0x00000000#32, perr := true, pcause := if s.perr = true then s.pcause else c }) ∧
  (∀ (s : State) (a : Addr) (w : Word), HostAccess.illegal (.write a w) = true →
    ∃ c, busCause (.write a w) = some c ∧ exec (.busIllegal (.write a w)) s = .next { s with
      perr := true, pcause := if s.perr = true then s.pcause else c })

/-- R86 as it stands: the first case that applies decides, for every address, direction, data word and state. -/
def Obligations.HostAccessHasTheFirstCase : Prop :=
  ∀ (a : HostAccess) (s : State), exec (decodeHost a) s = .next (
    if a.addr.extractLsb' 0 2 ≠ 0#2 then rejectAccess a .busMisaligned s
    else if ¬ (a.addr.toNat ≤ 0x014 ∨ (0x400 ≤ a.addr.toNat ∧ a.addr.toNat ≤ 0x7FC)) then
      rejectAccess a .busUnmapped s
    else match a with
      | .write addr w =>
        if addr ≠ 0x000#12 then rejectAccess a .busRoWrite s
        else if w.extractLsb' 0 4 ≠ 0x1#4 ∨ w.extractLsb' 5 27 ≠ 0#27 then rejectAccess a .cmdIllegal s
        else if s.phase = .tblgen then rejectAccess a .cmdTblgen s
        else if s.phase ≠ .idle then rejectAccess a .cmdBusy s
        else if w = 0x00000001#32 then started false s
        else started true s
      | .read addr =>
        if addr = 0x000#12 then rejectAccess a .busWoRead s
        else if 0x400 ≤ addr.toNat then
          (if s.tblrdy = false then rejectAccess a .tblNotReady s
           else returnRead (tableAt s.table (BitVec.ofNat 8 ((addr.toNat - 0x400) / 4))) s)
        else if addr = 0x004#12 then returnRead (statusWord s) s
        else if addr = 0x008#12 then returnRead s.result s
        else if addr = 0x00C#12 then returnRead (countLo s.count) s
        else if addr = 0x010#12 then returnRead (countHi s.count) s
        else returnRead s.errinfo s)

/-- R167: of all host writes only a legal command in `IDLE` changes anything beyond `PERR` and `PCAUSE`; every other one
records the cause of R86. -/
def Obligations.OnlyCommandsInIdleWrite : Prop :=
  ∀ (a : Addr) (w : Word) (s : State), ∃ t, exec (decodeHost (.write a w)) s = .next t ∧
    ((a = 0x000#12 ∧ s.phase = .idle ∧
        ((w = 0x00000001#32 ∧ exec .compute s = .next t) ∨ (w = 0x00000011#32 ∧ exec .computeCopy s = .next t))) ∨
     (¬ (a = 0x000#12 ∧ s.phase = .idle ∧ (w = 0x00000001#32 ∨ w = 0x00000011#32)) ∧
      t = { s with perr := true, pcause := if s.perr = true then s.pcause else
        if a.extractLsb' 0 2 ≠ 0#2 then .busMisaligned
        else if ¬ (a.toNat ≤ 0x014 ∨ (0x400 ≤ a.toNat ∧ a.toNat ≤ 0x7FC)) then .busUnmapped
        else if a ≠ 0x000#12 then .busRoWrite
        else if w ≠ 0x00000001#32 ∧ w ≠ 0x00000011#32 then .cmdIllegal
        else if s.phase = .tblgen then .cmdTblgen
        else .cmdBusy }))

/-- R187: only reset clears `PERR` and `PCAUSE`, and `PCAUSE` keeps the first cause. -/
def Obligations.ProtocolErrorsAreSticky : Prop :=
  (∀ (i : Instr) (s t : State), exec i s = .next t → i ≠ .reset → s.perr = true →
    t.perr = true ∧ t.pcause = s.pcause) ∧
  (∀ (i : Instr) (s t : State), exec i s = .next t → i ≠ .reset → s.perr = false → t.perr = false →
    t.pcause = s.pcause) ∧
  ∀ s t : State, exec .reset s = .next t → t.perr = false ∧ t.pcause = .noError

/-! ## Whole-machine rules -/

/-- R29: only FINISH writes `RESULT` (reset clears it), and it writes `~ACC`. -/
def Obligations.ResultWrittenOnlyByFinish : Prop :=
  (∀ (i : Instr) (s t : State), exec i s = .next t → i ≠ .finish → i ≠ .reset → t.result = s.result) ∧
  (∀ s t : State, exec .finish s = .next t → t.result = ~~~ s.acc) ∧
  ∀ s t : State, exec .reset s = .next t → t.result = 0x00000000#32

/-- R26: START sets `COUNT` to 0, CHUNK adds the chunk's length modulo 2^64, the final zero-length read adds 0, and no
other step but reset touches it. -/
def Obligations.CountCountsChunks : Prop :=
  (∀ (i : Instr) (s t : State), exec i s = .next t → i ≠ .chunk → i ≠ .compute → i ≠ .computeCopy → i ≠ .reset →
    t.count = s.count) ∧
  (∀ (i : Instr) (s t : State), (i = .compute ∨ i = .computeCopy) → exec i s = .next t →
    t.count = if s.phase = .idle then 0#64 else s.count) ∧
  ∀ s t : State, exec .chunk s = .next t → t.count.toNat = (s.count.toNat + s.buflen.toNat) % 2 ^ 64

/-- The "written by" column of R21: who may change each element; every element of the table has its clause. -/
def Obligations.ElementsHaveOnlyTheirWriters : Prop :=
  ∀ (i : Instr) (s t : State), exec i s = .next t → i ≠ .reset →
    t.cfg = s.cfg ∧
    (i ≠ .tblGen → t.table = s.table ∧ t.tblrdy = s.tblrdy) ∧
    (i ≠ .compute → i ≠ .computeCopy → i ≠ .chunk → t.acc = s.acc ∧ t.count = s.count) ∧
    ((∀ b, i ≠ .rdResp b) → t.buf = s.buf ∧ t.buflen = s.buflen) ∧
    (i ≠ .compute → i ≠ .computeCopy → t.copy = s.copy) ∧
    (i ≠ .compute → i ≠ .computeCopy → i ≠ .finish → t.done = s.done) ∧
    (i ≠ .compute → i ≠ .computeCopy → (∀ e, i ≠ .rdErr e) → (∀ b, i ≠ .rdLenerr b) → (∀ e, i ≠ .wrErr e) →
      t.ioerr = s.ioerr ∧ t.errsrc = s.errsrc ∧ t.errinfo = s.errinfo) ∧
    (i ≠ .finish → t.result = s.result) ∧
    (((i = .compute ∨ i = .computeCopy) → s.phase ≠ .idle) → i ≠ .tblGen → (∀ b, i ≠ .rdResp b) →
      (∀ b, i ≠ .rdLenerr b) → (∀ e, i ≠ .rdErr e) → i ≠ .wrAck → (∀ e, i ≠ .wrErr e) → i ≠ .chunk → i ≠ .finish →
      t.phase = s.phase) ∧
    ((∀ w, i ≠ .cmdIllegal w) → (∀ a, i ≠ .busIllegal a) →
      ((i = .compute ∨ i = .computeCopy) → s.phase = .idle) → ((∃ k, i = .rdTable k) → s.tblrdy = true) →
      t.perr = s.perr ∧ t.pcause = s.pcause)

/-- An I/O error is raised only by the three error steps, only while `BUSY = 1`, and makes `BUSY = 0`; a new command is
then accepted at once (R192). -/
def Obligations.IoErrorsEndABusyComputation : Prop :=
  ∀ (i : Instr) (s t : State), exec i s = .next t → s.ioerr = false → t.ioerr = true →
    ((∃ e, i = .rdErr e) ∨ (∃ b, i = .rdLenerr b) ∨ (∃ e, i = .wrErr e)) ∧ busy s = true ∧ t.phase = .idle ∧
    (∃ u, exec .compute t = .next u ∧ u.ioerr = false ∧ u.errsrc = .inErr ∧ u.errinfo = 0#32 ∧ u.phase = .rdwait)

/-- Every change of phase is one of the arrows of R130 and of the reset and table-generation rules. -/
def Obligations.PhasesFollowTheGraph : Prop :=
  ∀ (i : Instr) (s t : State), exec i s = .next t → i ≠ .reset →
    t.phase = s.phase ∨
    (s.phase = .tblgen ∧ t.phase = .idle ∧ i = .tblGen) ∨
    (s.phase = .idle ∧ t.phase = .rdwait ∧ (i = .compute ∨ i = .computeCopy)) ∨
    (s.phase = .rdwait ∧ ∃ b, i = .rdResp b ∧ t.phase = if sinkWriteEnable s b.length = true then .wrwait else .proc) ∨
    (s.phase = .wrwait ∧ t.phase = .proc ∧ i = .wrAck) ∨
    (s.phase = .proc ∧ t.phase = .rdwait ∧ i = .chunk ∧ s.buflen ≠ 0#32) ∨
    (s.phase = .proc ∧ t.phase = .idle ∧ i = .finish ∧ s.buflen = 0#32) ∨
    (s.phase = .rdwait ∧ t.phase = .idle ∧ ((∃ e, i = .rdErr e) ∨ ∃ b, i = .rdLenerr b)) ∨
    (s.phase = .wrwait ∧ t.phase = .idle ∧ ∃ e, i = .wrErr e)

/-- While `BUSY = 0` no step but a command and reset changes what the host reads of a computation (R73, R222, and R30's
last sentence). -/
def Obligations.ResultsHoldWhileNotBusy : Prop :=
  ∀ (i : Instr) (s t : State), exec i s = .next t → busy s = false → i ≠ .compute → i ≠ .computeCopy → i ≠ .reset →
    busy t = false ∧ t.result = s.result ∧ t.count = s.count ∧ t.done = s.done ∧ t.ioerr = s.ioerr ∧
    t.errsrc = s.errsrc ∧ t.errinfo = s.errinfo

/-! ## Reset and invariants -/

/-- R210: what the RESET step leaves in every element whose reset value is given, for both forms of the table; nothing is
outstanding. `ACC`, `BUF`, `BUFLEN` (and `TABLE` with GENERATE) are unspecified, and nothing is said of them. -/
def Obligations.ResetRestoresEveryElement : Prop :=
  (∀ (c : DecodeCtx) (p : BitVec 3), decode c (.fsm (0b101#3 ++ p) .empty) = .instr .reset) ∧
  ∀ s : State, ∃ t, exec .reset s = .next t ∧
    t.cfg = s.cfg ∧ t.count = 0#64 ∧ t.copy = false ∧ t.done = false ∧ t.ioerr = false ∧ t.errsrc = .inErr ∧
    t.errinfo = 0x00000000#32 ∧ t.perr = false ∧ t.pcause = .noError ∧ t.result = 0x00000000#32 ∧
    (s.cfg.tableImpl = .generate → t.phase = .tblgen ∧ t.tblrdy = false ∧ statusWord t = 0x00000100#32) ∧
    (s.cfg.tableImpl = .rom →
      t.phase = .idle ∧ t.tblrdy = true ∧ statusWord t = 0x00000040#32 ∧ ∀ i, tableAt t.table i = reduce8 i) ∧
    t.buf.length = s.cfg.bufSize ∧ outstanding t = none

/-- Power-up is a reset (R213): the values R21 gives, for every choice of parameters; State.reset is the default one. The
values the spec leaves unspecified (log entry 2) are not mentioned. -/
def Obligations.PowerUpHasTheResetValues : Prop :=
  powerUp Config.default = State.reset ∧
  statusWord State.reset = 0x00000100#32 ∧
  ∀ c : Config,
    (powerUp c).cfg = c ∧ (powerUp c).count = 0#64 ∧ (powerUp c).copy = false ∧ (powerUp c).done = false ∧
    (powerUp c).ioerr = false ∧ (powerUp c).errsrc = .inErr ∧ (powerUp c).errinfo = 0#32 ∧ (powerUp c).perr = false ∧
    (powerUp c).pcause = .noError ∧ (powerUp c).result = 0#32 ∧
    (c.tableImpl = .generate → (powerUp c).phase = .tblgen ∧ (powerUp c).tblrdy = false) ∧
    (c.tableImpl = .rom → (powerUp c).phase = .idle ∧ (powerUp c).tblrdy = true ∧ statusWord (powerUp c) = 0x40#32)

/-- The invariants hold at State.reset and after every power-up with legal parameters. -/
def Obligations.PowerUpMeetsTheInvariants : Prop :=
  (BlockInv State.reset ∧ Shape State.reset ∧ SinkLogAgrees State.reset) ∧
  ∀ c : Config, c.wf = true → BlockInv (powerUp c) ∧ Shape (powerUp c) ∧ SinkLogAgrees (powerUp c)

/-- R39: every step of every agent preserves (a) to (g). -/
def Obligations.StepKeepsTheInvariants : Prop :=
  ∀ s t : State, BlockInv s → step s = .next t → BlockInv t

/-- Every step keeps `BUF` at `BUF_SIZE` bytes, the parameters, a ready table equal to the CRC table, and the sink log in
agreement with `PHASE` (R22, R27, R34, R38, R40). That SINKLOG holds an issued write without an answer until it comes is
log entry 8 (DEDUCED). -/
def Obligations.StepKeepsShapeAndSinkLog : Prop :=
  ∀ s t : State, Shape s → SinkLogAgrees s → step s = .next t → t.cfg = s.cfg ∧ Shape t ∧ SinkLogAgrees t

/-- GENERATE and ROM differ after reset in `PHASE` and `TBLRDY` only: once TBL_GEN has run the two states are the same
but for the parameter (R105). -/
def Obligations.GenerateAndRomAgreeAfterTblGen : Prop :=
  ∀ s : State,
    ∃ g t r, exec .reset { s with cfg := { s.cfg with tableImpl := .generate } } = .next g ∧
      exec .tblGen g = .next t ∧
      exec .reset { s with cfg := { s.cfg with tableImpl := .rom } } = .next r ∧
      t = { r with cfg := { s.cfg with tableImpl := .generate } }

/-! ## Encoding and stepping -/

/-- Decode and encode agree on every encoded instruction, with every operand, for every `BUF_SIZE` and `BUFLEN`. -/
def Obligations.DecodeInvertsEncode : Prop :=
  ∀ (c : DecodeCtx) (i : Instr), wellFormed c i = true → i.encoded = true →
    ∃ tx, encode i = some tx ∧ decode c tx = .instr i

/-- The other direction: what decodes is well formed, and is the encoding of what it decodes to, but for RESET's
don't-care phase bits. -/
def Obligations.EncodeInvertsDecode : Prop :=
  ∀ (c : DecodeCtx) (tx : Transaction) (i : Instr), decode c tx = .instr i →
    wellFormed c i = true ∧ i.encoded = true ∧
    (i ≠ .reset → encode i = some tx) ∧ (i = .reset → ∃ p : BitVec 3, tx = .fsm (5#3 ++ p) .empty)

/-- Words written out from R82, R84, R85 and R87 decode to their instructions. -/
def Obligations.WrittenWordsDecode : Prop :=
  decode tableCtx (.bus (.write 0b000000000000#12 0b00000000000000000000000000000001#32)) = .instr .compute ∧
  decode tableCtx (.bus (.write 0b000000000000#12 0b00000000000000000000000000010001#32)) = .instr .computeCopy ∧
  decode tableCtx (.bus (.read 0b000000000100#12)) = .instr .rdStatus ∧
  decode tableCtx (.bus (.read 0b011000000000#12)) = .instr (.rdTable 0x80#8) ∧
  decode tableCtx (.bus (.read 0b000000011000#12)) = .instr (.busIllegal (.read 0x018#12)) ∧
  decode tableCtx (.fsm 0b000001#6 .empty) = .instr .tblGen ∧
  decode tableCtx (.fsm 0b001010#6 (.data [0x61#8])) = .instr (.rdResp [0x61#8]) ∧
  decode tableCtx (.fsm 0b100011#6 (.err 0x0000BEEF#32)) = .instr (.wrErr 0x0000BEEF#32) ∧
  decode tableCtx (.fsm 0b101111#6 .empty) = .instr .reset

/-- R87: the selector is `EV·8 + PHASE`, with the codes of the table; for every event but a host access and every phase,
the step of the table, or none. -/
def Obligations.EventsSelectTheirSteps : Prop :=
  (∀ (ev : Event) (p : Phase), (selector ev p).toNat = (eventCode ev).toNat * 8 + (phaseCode p).toNat) ∧
  (∀ (b : List Byte) (e : Word) (a : HostAccess),
    [Event.internal, .inData b, .inErr e, .sinkAck, .sinkErr e, .reset, .host a, .reserved].map eventCode =
      [0#3, 1#3, 2#3, 3#3, 4#3, 5#3, 6#3, 7#3]) ∧
  ∀ (c : DecodeCtx) (p : Phase),
    (p = .tblgen → decode c (transactionOf .internal p) = .instr .tblGen) ∧
    (p = .proc → c.buflen ≠ 0#32 → decode c (transactionOf .internal p) = .instr .chunk) ∧
    (p = .proc → c.buflen = 0#32 → decode c (transactionOf .internal p) = .instr .finish) ∧
    (p ≠ .tblgen → p ≠ .proc → ∃ r, decode c (transactionOf .internal p) = .reject r) ∧
    (∀ b : List Byte,
      (p = .rdwait → b.length ≤ c.bufSize → decode c (transactionOf (.inData b) p) = .instr (.rdResp b)) ∧
      (p = .rdwait → c.bufSize < b.length → b.length < 2 ^ 32 →
        decode c (transactionOf (.inData b) p) = .instr (.rdLenerr b)) ∧
      (p ≠ .rdwait → ∃ r, decode c (transactionOf (.inData b) p) = .reject r)) ∧
    (∀ e : Word,
      (p = .rdwait → decode c (transactionOf (.inErr e) p) = .instr (.rdErr e)) ∧
      (p ≠ .rdwait → ∃ r, decode c (transactionOf (.inErr e) p) = .reject r) ∧
      (p = .wrwait → decode c (transactionOf (.sinkErr e) p) = .instr (.wrErr e)) ∧
      (p ≠ .wrwait → ∃ r, decode c (transactionOf (.sinkErr e) p) = .reject r)) ∧
    (p = .wrwait → decode c (transactionOf .sinkAck p) = .instr .wrAck) ∧
    (p ≠ .wrwait → ∃ r, decode c (transactionOf .sinkAck p) = .reject r) ∧
    decode c (transactionOf .reset p) = .instr .reset ∧
    (∃ r, decode c (transactionOf .reserved p) = .reject r)

/-- A step runs the decoded instruction: the next event's transaction, decoded in the state, is executed with that event
taken; the next event is the agenda's first, with an empty agenda the recurring events' first, and without either the
core's own step; an agent's event that decodes to nothing is not admitted. The agenda and the recurring events are the
model's choice (log entries 4 and 19). -/
def Obligations.StepRunsTheDecodedInstruction : Prop :=
  (∀ (s : State) (ev : Event) (rest : List Event) (i : Instr), s.agenda = ev :: rest →
    decode { bufSize := s.cfg.bufSize, buflen := s.buflen } (transactionOf ev s.phase) = .instr i →
    step s = exec i { s with agenda := rest }) ∧
  (∀ (s : State) (ev : Event) (rest : List Event) (i : Instr), s.agenda = [] → s.recurring = ev :: rest →
    decode { bufSize := s.cfg.bufSize, buflen := s.buflen } (transactionOf ev s.phase) = .instr i →
    step s = exec i { s with agenda := rest }) ∧
  (∀ (s : State) (i : Instr), s.agenda = [] → s.recurring = [] →
    decode { bufSize := s.cfg.bufSize, buflen := s.buflen } (transactionOf .internal s.phase) = .instr i →
    step s = exec i s) ∧
  (∀ (s : State) (ev : Event) (rest : List Event) (r : Reject),
    s.agenda = ev :: rest ∨ (s.agenda = [] ∧ s.recurring = ev :: rest) →
    decode { bufSize := s.cfg.bufSize, buflen := s.buflen } (transactionOf ev s.phase) = .reject r →
    step s = .refused (.notAdmitted r))

/-- R223: a computation ends only by FINISH (after an answer of no bytes), an I/O error or reset. With no agent's event to
come the run is stuck in `IDLE`, `RDWAIT` and `WRWAIT`, where no core step is enabled, and goes on in `TBLGEN` and `PROC`.
An input that always returns more bytes (and a sink that always acknowledges) keeps the block busy in an infinite run:
every number of steps is taken and leaves `BUSY = 1`. The agenda, the recurring events and the fault are the model's
choice (log entries 4, 16 and 19). -/
def Obligations.StuckExactlyWithoutACoreStep : Prop :=
  (∀ (i : Instr) (s t : State), exec i s = .next t → busy s = true → busy t = false →
    (i = .finish ∧ s.buflen = 0#32) ∨ (∃ e, i = .rdErr e) ∨ (∃ b, i = .rdLenerr b) ∨ (∃ e, i = .wrErr e) ∨
    i = .reset) ∧
  (∀ s : State, s.agenda = [] → s.recurring = [] →
    ((s.phase = .idle ∨ s.phase = .rdwait ∨ s.phase = .wrwait) → step s = .fault .stuck) ∧
    ((s.phase = .tblgen ∨ s.phase = .proc) → ∃ t, step s = .next t)) ∧
  (∀ (s : State) (first again : List (List Byte)), BlockInv s → Shape s → s.phase = .rdwait →
    ChunksFit s.cfg first → ChunksFit s.cfg again → again ≠ [] →
    s.agenda = streamEvents s.copy s.cfg.skipZeroLenWrite first →
    s.recurring = streamEvents s.copy s.cfg.skipZeroLenWrite again →
    ∀ n, ∃ t, Sys2Proof.core.run n s = .next t ∧ busy t = true)

/-- R212: an answer to an abandoned transaction is not admitted, and after reset the block issues no port transaction
until the next COMPUTE or COMPUTE_COPY. -/
def Obligations.NoAnswerAndNoRequestAfterReset : Prop :=
  (∀ s t : State, exec .reset s = .next t → busy t = false) ∧
  (∀ s : State, busy s = false →
    ((∃ b, nextEvent s = .inData b) ∨ (∃ e, nextEvent s = .inErr e) ∨ nextEvent s = .sinkAck ∨
      (∃ e, nextEvent s = .sinkErr e)) →
    ∃ r, step s = .refused (.notAdmitted r)) ∧
  (∀ (i : Instr) (s t : State), exec i s = .next t → busy s = false → i ≠ .compute → i ≠ .computeCopy →
    busy t = false ∧ outstanding t = none)

/-- A table word that decodes runs as the very next instruction (the model's way to place one, log entry 5). -/
def Obligations.TableWordsRunNext : Prop :=
  ∀ (s : State) (nbits w : Nat) (i : Instr), decodeTableWord nbits w = some i →
    step (s.withFetchWord nbits w) = exec i { s.withFetchWord nbits w with agenda := s.agenda }

/-! ## Computations -/

/-- Every step inside a computation keeps `ACC` and `COUNT` equal to the fold and the length of the chunks read since
START, whatever the interleaving; the computation ends in FINISH with the CRC, in an I/O error with no result, or in a
reset; a command in `IDLE` begins one. -/
def Obligations.ComputationTracksItsInput : Prop :=
  (∀ s t : State, s.phase = .idle → (exec .compute s = .next t ∨ exec .computeCopy s = .next t) →
    Tracks s.inlog [] t) ∧
  (∀ (base : List InAnswer) (cs : List (List Byte)) (s t : State), BlockInv s → Shape s → Tracks base cs s →
    step s = .next t →
    (∃ more, Tracks base (cs ++ more) t ∧ more.length ≤ 1 ∧ t.result = s.result) ∨
    (t.phase = .idle ∧ t.done = true ∧ t.ioerr = false ∧ cs.getLast? = some [] ∧ t.result = crc cs.flatten ∧
      t.count = BitVec.ofNat 64 (totalBytes cs)) ∨
    (t.phase = .idle ∧ t.done = false ∧ t.ioerr = true ∧ t.result = s.result ∧ t.count = s.count) ∨
    (nextEvent s = .reset ∧ t.phase = phaseAfterReset s.cfg.tableImpl ∧ t.done = false ∧ t.ioerr = false))

/-- R132, R141: a computation over the chunks `cs` that meets no error ends with `RESULT = CRC` of the concatenation and
`COUNT` the byte total modulo 2^64, for both commands, every legal parameter, and host accesses anywhere among its
events. -/
def Obligations.SuccessfulComputationResult : Prop :=
  ∀ (s : State) (copy : Bool) (cs : List (List Byte)) (evs rest : List Event),
    BlockInv s → Shape s → s.phase = .idle → ChunksFit s.cfg cs →
    IsSchedule copy s.cfg.skipZeroLenWrite cs evs → s.agenda = startEvent copy :: (evs ++ rest) →
    ∃ t, Sys2Proof.core.run (evs.length + 1) s = .next t ∧
      t.result = crc cs.flatten ∧ t.count = BitVec.ofNat 64 (totalBytes cs) ∧
      t.done = true ∧ t.ioerr = false ∧ t.phase = .idle ∧ t.agenda = rest

/-- R134, R140: with `COPY = 1` write `j` carries exactly the bytes of read `j`, each acknowledged; the zero-length write
comes last unless it is skipped; the sink gets the input's bytes in order. The logs are those of R40
(log entry 8). -/
def Obligations.CopyFidelity : Prop :=
  ∀ (s : State) (cs : List (List Byte)) (evs rest : List Event),
    BlockInv s → Shape s → s.phase = .idle → ChunksFit s.cfg cs →
    IsSchedule true s.cfg.skipZeroLenWrite cs evs → s.agenda = startEvent true :: (evs ++ rest) →
    ∃ t writes, Sys2Proof.core.run (evs.length + 1) s = .next t ∧ t.phase = .idle ∧ t.done = true ∧
      t.inlog = s.inlog ++ (cs ++ [[]]).map InAnswer.data ∧
      t.sinklog = s.sinklog ++ writes ∧
      writes.map SinkEntry.bytes = (if s.cfg.skipZeroLenWrite = true then cs else cs ++ [[]]) ∧
      (∀ e ∈ writes, e.n.toNat = e.bytes.length ∧ e.answer = some .ack) ∧
      (writes.map SinkEntry.bytes).flatten = cs.flatten

/-- R133: the empty stream gives `RESULT = 0` and `COUNT = 0`; with `COPY = 1` and no skipping exactly one
`SinkWrite(0, [])` is issued. -/
def Obligations.EmptyStream : Prop :=
  ∀ (s : State) (copy : Bool) (evs rest : List Event),
    BlockInv s → Shape s → s.phase = .idle →
    IsSchedule copy s.cfg.skipZeroLenWrite [] evs → s.agenda = startEvent copy :: (evs ++ rest) →
    ∃ t, Sys2Proof.core.run (evs.length + 1) s = .next t ∧
      t.phase = .idle ∧ t.done = true ∧ t.result = 0x00000000#32 ∧ t.count = 0#64 ∧
      (copy = true ∧ s.cfg.skipZeroLenWrite = false →
        t.sinklog = s.sinklog ++ [{ n := 0#32, bytes := [], answer := some .ack }])

/-- R142, R143, R144: two computations over the same bytes end with the same `RESULT` and `COUNT`, whatever the chunking,
the parameters, the command, the host accesses between and the states they start from. -/
def Obligations.ResultDependsOnTheBytesOnly : Prop :=
  ∀ (s₁ s₂ : State) (copy₁ copy₂ : Bool) (cs₁ cs₂ : List (List Byte)) (evs₁ evs₂ rest₁ rest₂ : List Event),
    BlockInv s₁ → Shape s₁ → s₁.phase = .idle → ChunksFit s₁.cfg cs₁ →
    IsSchedule copy₁ s₁.cfg.skipZeroLenWrite cs₁ evs₁ → s₁.agenda = startEvent copy₁ :: (evs₁ ++ rest₁) →
    BlockInv s₂ → Shape s₂ → s₂.phase = .idle → ChunksFit s₂.cfg cs₂ →
    IsSchedule copy₂ s₂.cfg.skipZeroLenWrite cs₂ evs₂ → s₂.agenda = startEvent copy₂ :: (evs₂ ++ rest₂) →
    cs₁.flatten = cs₂.flatten →
    ∃ t₁ t₂, Sys2Proof.core.run (evs₁.length + 1) s₁ = .next t₁ ∧ Sys2Proof.core.run (evs₂.length + 1) s₂ = .next t₂ ∧
      t₁.done = true ∧ t₂.done = true ∧ t₁.result = t₂.result ∧ t₁.count = t₂.count ∧
      t₁.result = crc cs₁.flatten ∧ t₁.count = BitVec.ofNat 64 cs₁.flatten.length

/-- R131: COMPUTE and COMPUTE_COPY with an acknowledging sink, given the same answers. Without host accesses between, the
end states differ in `COPY` and `SINKLOG` only; with host accesses anywhere among the events of either, both reach the
same `ACC`, `COUNT`, `RESULT`, `DONE` and `INLOG`. -/
def Obligations.ComputeIsComputeCopyWithoutSink : Prop :=
  (∀ (s : State) (cs : List (List Byte)) (rest : List Event),
    BlockInv s → Shape s → s.phase = .idle → ChunksFit s.cfg cs →
    ∃ t u,
      Sys2Proof.core.run ((bodyEvents false s.cfg.skipZeroLenWrite cs).length + 1)
        { s with agenda := startEvent false :: (bodyEvents false s.cfg.skipZeroLenWrite cs ++ rest) } = .next t ∧
      Sys2Proof.core.run ((bodyEvents true s.cfg.skipZeroLenWrite cs).length + 1)
        { s with agenda := startEvent true :: (bodyEvents true s.cfg.skipZeroLenWrite cs ++ rest) } = .next u ∧
      t.phase = .idle ∧ t.done = true ∧ t.copy = false ∧ u.copy = true ∧
      u = { t with copy := true, sinklog := u.sinklog }) ∧
  (∀ (s : State) (cs : List (List Byte)) (evs evs' rest : List Event),
    BlockInv s → Shape s → s.phase = .idle → ChunksFit s.cfg cs →
    IsSchedule false s.cfg.skipZeroLenWrite cs evs → IsSchedule true s.cfg.skipZeroLenWrite cs evs' →
    ∃ t u,
      Sys2Proof.core.run (evs.length + 1) { s with agenda := startEvent false :: (evs ++ rest) } = .next t ∧
      Sys2Proof.core.run (evs'.length + 1) { s with agenda := startEvent true :: (evs' ++ rest) } = .next u ∧
      t.acc = u.acc ∧ t.count = u.count ∧ t.result = u.result ∧ t.done = true ∧ u.done = true ∧ t.inlog = u.inlog)

/-! ## The host's view -/

/-- Lane `k` of a register carries bits `[8k+7:8k]`, and the four lanes make up the register (R65). -/
def Obligations.ByteLanesAreLittleEndian : Prop :=
  ∀ w : Word,
    (∀ k j : Nat, k < 4 → j < 8 → (lane w k).getLsbD j = w.getLsbD (8 * k + j)) ∧
    ofLanes (lane w 0) (lane w 1) (lane w 2) (lane w 3) = w

/-- R91: the expansions decode to the instructions they are made of, for every number of times WAITIDLE repeats its poll
(an argument of the expansion, log entry 17, DEDUCED: the block does not bound it and the host decides it), and a poll's
value ends WAITIDLE exactly in `IDLE`. -/
def Obligations.PseudoInstructionsExpand : Prop :=
  (∀ (n : Nat) (p : Pseudo), (expandPseudo n p).map (fun l => decodeHost (lineAccess l)) =
    match p with
    | .compute => [.compute]
    | .computeCopy => [.computeCopy]
    | .waitIdle => List.replicate (n + 1) .rdStatus
    | .rdCount _ _ => [.rdCountLo, .rdCountHi]
    | .crc32 _ => [.compute] ++ List.replicate (n + 1) .rdStatus ++ [.rdResult]) ∧
  ∀ s : State, waitIdleEnds (statusWord s) = true ↔ s.phase = .idle

/-! ## The observation logs -/

/-- What the two logs of R40 record. That an `Err` answer and an oversized answer are received and logged, that an issued
write stands without an answer until it comes, and that RESET leaves both logs is log entry 8 (DEDUCED), the model's
reading of R40. -/
def Obligations.LogsRecordThePortTransactions : Prop :=
  (∀ (s t : State) (b : List Byte), exec (.rdResp b) s = .next t → t.inlog = s.inlog ++ [.data b] ∧
    t.sinklog = if sinkWriteEnable s b.length = true
      then s.sinklog ++ [{ n := BitVec.ofNat 32 b.length, bytes := b, answer := none }] else s.sinklog) ∧
  (∀ (s t : State) (b : List Byte), exec (.rdLenerr b) s = .next t →
    t.inlog = s.inlog ++ [.data b] ∧ t.sinklog = s.sinklog) ∧
  (∀ (s t : State) (e : Word), exec (.rdErr e) s = .next t →
    t.inlog = s.inlog ++ [.err e] ∧ t.sinklog = s.sinklog) ∧
  (∀ (s t : State) (before : List SinkEntry) (w : SinkEntry), s.sinklog = before ++ [w] → exec .wrAck s = .next t →
    t.inlog = s.inlog ∧ t.sinklog = before ++ [{ w with answer := some .ack }]) ∧
  (∀ (s t : State) (before : List SinkEntry) (w : SinkEntry) (e : Word), s.sinklog = before ++ [w] →
    exec (.wrErr e) s = .next t →
    t.inlog = s.inlog ∧ t.sinklog = before ++ [{ w with answer := some (.err e) }]) ∧
  (∀ (i : Instr) (s t : State), exec i s = .next t → (∀ b, i ≠ .rdResp b) → (∀ b, i ≠ .rdLenerr b) →
    (∀ e, i ≠ .rdErr e) → i ≠ .wrAck → (∀ e, i ≠ .wrErr e) → t.inlog = s.inlog ∧ t.sinklog = s.sinklog)
end

