-- ==== Sys2Proof/Laws/Datapath.lean ====
section
/-!
SUPPORT. The small lemmas of the combinational functions.
-/

namespace Sys2Proof.Machine

/-- Reading a table built from `f` gives `f` of the index. -/
@[simp] theorem tableAt_tableOf (f : Byte → Word) (i : Byte) : tableAt (tableOf f) i = f i := by
  simp [tableAt, tableOf]

/-- R104: the entries of the generated table. -/
@[simp] theorem tableAt_crcTable (i : Byte) : tableAt crcTable i = reduce8 i := tableAt_tableOf _ i

/-- Two tables with the same entries are the same. -/
theorem table_ext (t u : Table) (h : ∀ i, tableAt t i = tableAt u i) : t = u := by
  apply Vector.ext
  intro k hk
  have hk' : (BitVec.ofNat 8 k).toNat = k := by simp; omega
  have := h (BitVec.ofNat 8 k)
  simp only [tableAt, hk'] at this
  exact this

@[simp] theorem reduceIter_zero (v : Word) : reduceIter 0 v = v := rfl

theorem reduceIter_succ (k : Nat) (v : Word) : reduceIter (k + 1) v = reduceIter k (reduceStep v) := rfl

@[simp] theorem fold_nil (t : Table) (acc : Word) : fold t acc [] = acc := rfl

@[simp] theorem fold_cons (t : Table) (acc : Word) (b : Byte) (rest : List Byte) :
    fold t acc (b :: rest) = fold t (byteUpdate t acc b) rest := rfl

/-- The index of BYTE_UPDATE in the generated table. -/
theorem byteUpdate_crcTable (acc : Word) (b : Byte) :
    byteUpdate crcTable acc b = (acc >>> 8) ^^^ reduce8 (b ^^^ acc.setWidth 8) := by
  simp [byteUpdate]

end Sys2Proof.Machine
end

