-- ==== Sys2Proof/Laws/State.lean ====
section
/-!
SUPPORT. What each named update of the state does to each field, true by rfl.
-/

namespace Sys2Proof.Machine

variable (s : State)

@[simp] theorem raiseIOError_cfg (src : ErrSrc) (info : Word) : (raiseIOError src info s).cfg = s.cfg := rfl
@[simp] theorem raiseIOError_table (src : ErrSrc) (info : Word) : (raiseIOError src info s).table = s.table := rfl
@[simp] theorem raiseIOError_acc (src : ErrSrc) (info : Word) : (raiseIOError src info s).acc = s.acc := rfl
@[simp] theorem raiseIOError_count (src : ErrSrc) (info : Word) : (raiseIOError src info s).count = s.count := rfl
@[simp] theorem raiseIOError_buf (src : ErrSrc) (info : Word) : (raiseIOError src info s).buf = s.buf := rfl
@[simp] theorem raiseIOError_buflen (src : ErrSrc) (info : Word) : (raiseIOError src info s).buflen = s.buflen := rfl
@[simp] theorem raiseIOError_phase (src : ErrSrc) (info : Word) : (raiseIOError src info s).phase = .idle := rfl
@[simp] theorem raiseIOError_copy (src : ErrSrc) (info : Word) : (raiseIOError src info s).copy = s.copy := rfl
@[simp] theorem raiseIOError_tblrdy (src : ErrSrc) (info : Word) : (raiseIOError src info s).tblrdy = s.tblrdy := rfl
@[simp] theorem raiseIOError_done (src : ErrSrc) (info : Word) : (raiseIOError src info s).done = s.done := rfl
@[simp] theorem raiseIOError_ioerr (src : ErrSrc) (info : Word) : (raiseIOError src info s).ioerr = true := rfl
@[simp] theorem raiseIOError_errsrc (src : ErrSrc) (info : Word) : (raiseIOError src info s).errsrc = src := rfl
@[simp] theorem raiseIOError_errinfo (src : ErrSrc) (info : Word) : (raiseIOError src info s).errinfo = info := rfl
@[simp] theorem raiseIOError_perr (src : ErrSrc) (info : Word) : (raiseIOError src info s).perr = s.perr := rfl
@[simp] theorem raiseIOError_pcause (src : ErrSrc) (info : Word) : (raiseIOError src info s).pcause = s.pcause := rfl
@[simp] theorem raiseIOError_result (src : ErrSrc) (info : Word) : (raiseIOError src info s).result = s.result := rfl
@[simp] theorem raiseIOError_inlog (src : ErrSrc) (info : Word) : (raiseIOError src info s).inlog = s.inlog := rfl
@[simp] theorem raiseIOError_sinklog (src : ErrSrc) (info : Word) :
    (raiseIOError src info s).sinklog = s.sinklog := rfl
@[simp] theorem raiseIOError_rdata (src : ErrSrc) (info : Word) : (raiseIOError src info s).rdata = s.rdata := rfl
@[simp] theorem raiseIOError_dpOut (src : ErrSrc) (info : Word) : (raiseIOError src info s).dpOut = s.dpOut := rfl
@[simp] theorem raiseIOError_agenda (src : ErrSrc) (info : Word) : (raiseIOError src info s).agenda = s.agenda := rfl
@[simp] theorem raiseIOError_recurring (src : ErrSrc) (info : Word) : (raiseIOError src info s).recurring = s.recurring := rfl
@[simp] theorem raiseIOError_freeCtr (src : ErrSrc) (info : Word) :
    (raiseIOError src info s).freeCtr = s.freeCtr := rfl

@[simp] theorem raiseProtocolError_cfg (c : PCause) : (raiseProtocolError c s).cfg = s.cfg := rfl
@[simp] theorem raiseProtocolError_table (c : PCause) : (raiseProtocolError c s).table = s.table := rfl
@[simp] theorem raiseProtocolError_acc (c : PCause) : (raiseProtocolError c s).acc = s.acc := rfl
@[simp] theorem raiseProtocolError_count (c : PCause) : (raiseProtocolError c s).count = s.count := rfl
@[simp] theorem raiseProtocolError_buf (c : PCause) : (raiseProtocolError c s).buf = s.buf := rfl
@[simp] theorem raiseProtocolError_buflen (c : PCause) : (raiseProtocolError c s).buflen = s.buflen := rfl
@[simp] theorem raiseProtocolError_phase (c : PCause) : (raiseProtocolError c s).phase = s.phase := rfl
@[simp] theorem raiseProtocolError_copy (c : PCause) : (raiseProtocolError c s).copy = s.copy := rfl
@[simp] theorem raiseProtocolError_tblrdy (c : PCause) : (raiseProtocolError c s).tblrdy = s.tblrdy := rfl
@[simp] theorem raiseProtocolError_done (c : PCause) : (raiseProtocolError c s).done = s.done := rfl
@[simp] theorem raiseProtocolError_ioerr (c : PCause) : (raiseProtocolError c s).ioerr = s.ioerr := rfl
@[simp] theorem raiseProtocolError_errsrc (c : PCause) : (raiseProtocolError c s).errsrc = s.errsrc := rfl
@[simp] theorem raiseProtocolError_errinfo (c : PCause) : (raiseProtocolError c s).errinfo = s.errinfo := rfl
@[simp] theorem raiseProtocolError_perr (c : PCause) : (raiseProtocolError c s).perr = true := rfl
@[simp] theorem raiseProtocolError_pcause (c : PCause) :
    (raiseProtocolError c s).pcause = if s.perr then s.pcause else c := rfl
@[simp] theorem raiseProtocolError_result (c : PCause) : (raiseProtocolError c s).result = s.result := rfl
@[simp] theorem raiseProtocolError_inlog (c : PCause) : (raiseProtocolError c s).inlog = s.inlog := rfl
@[simp] theorem raiseProtocolError_sinklog (c : PCause) : (raiseProtocolError c s).sinklog = s.sinklog := rfl
@[simp] theorem raiseProtocolError_rdata (c : PCause) : (raiseProtocolError c s).rdata = s.rdata := rfl
@[simp] theorem raiseProtocolError_dpOut (c : PCause) : (raiseProtocolError c s).dpOut = s.dpOut := rfl
@[simp] theorem raiseProtocolError_agenda (c : PCause) : (raiseProtocolError c s).agenda = s.agenda := rfl
@[simp] theorem raiseProtocolError_recurring (c : PCause) : (raiseProtocolError c s).recurring = s.recurring := rfl
@[simp] theorem raiseProtocolError_freeCtr (c : PCause) : (raiseProtocolError c s).freeCtr = s.freeCtr := rfl

@[simp] theorem returnRead_cfg (v : Word) : (returnRead v s).cfg = s.cfg := rfl
@[simp] theorem returnRead_table (v : Word) : (returnRead v s).table = s.table := rfl
@[simp] theorem returnRead_acc (v : Word) : (returnRead v s).acc = s.acc := rfl
@[simp] theorem returnRead_count (v : Word) : (returnRead v s).count = s.count := rfl
@[simp] theorem returnRead_buf (v : Word) : (returnRead v s).buf = s.buf := rfl
@[simp] theorem returnRead_buflen (v : Word) : (returnRead v s).buflen = s.buflen := rfl
@[simp] theorem returnRead_phase (v : Word) : (returnRead v s).phase = s.phase := rfl
@[simp] theorem returnRead_copy (v : Word) : (returnRead v s).copy = s.copy := rfl
@[simp] theorem returnRead_tblrdy (v : Word) : (returnRead v s).tblrdy = s.tblrdy := rfl
@[simp] theorem returnRead_done (v : Word) : (returnRead v s).done = s.done := rfl
@[simp] theorem returnRead_ioerr (v : Word) : (returnRead v s).ioerr = s.ioerr := rfl
@[simp] theorem returnRead_errsrc (v : Word) : (returnRead v s).errsrc = s.errsrc := rfl
@[simp] theorem returnRead_errinfo (v : Word) : (returnRead v s).errinfo = s.errinfo := rfl
@[simp] theorem returnRead_perr (v : Word) : (returnRead v s).perr = s.perr := rfl
@[simp] theorem returnRead_pcause (v : Word) : (returnRead v s).pcause = s.pcause := rfl
@[simp] theorem returnRead_result (v : Word) : (returnRead v s).result = s.result := rfl
@[simp] theorem returnRead_inlog (v : Word) : (returnRead v s).inlog = s.inlog := rfl
@[simp] theorem returnRead_sinklog (v : Word) : (returnRead v s).sinklog = s.sinklog := rfl
@[simp] theorem returnRead_rdata (v : Word) : (returnRead v s).rdata = v := rfl
@[simp] theorem returnRead_dpOut (v : Word) : (returnRead v s).dpOut = s.dpOut := rfl
@[simp] theorem returnRead_agenda (v : Word) : (returnRead v s).agenda = s.agenda := rfl
@[simp] theorem returnRead_recurring (v : Word) : (returnRead v s).recurring = s.recurring := rfl
@[simp] theorem returnRead_freeCtr (v : Word) : (returnRead v s).freeCtr = s.freeCtr := rfl

@[simp] theorem started_cfg (c : Bool) : (started c s).cfg = s.cfg := rfl
@[simp] theorem started_table (c : Bool) : (started c s).table = s.table := rfl
@[simp] theorem started_acc (c : Bool) : (started c s).acc = Config.init := rfl
@[simp] theorem started_count (c : Bool) : (started c s).count = 0#64 := rfl
@[simp] theorem started_buf (c : Bool) : (started c s).buf = s.buf := rfl
@[simp] theorem started_buflen (c : Bool) : (started c s).buflen = s.buflen := rfl
@[simp] theorem started_phase (c : Bool) : (started c s).phase = .rdwait := rfl
@[simp] theorem started_copy (c : Bool) : (started c s).copy = c := rfl
@[simp] theorem started_tblrdy (c : Bool) : (started c s).tblrdy = s.tblrdy := rfl
@[simp] theorem started_done (c : Bool) : (started c s).done = false := rfl
@[simp] theorem started_ioerr (c : Bool) : (started c s).ioerr = false := rfl
@[simp] theorem started_errsrc (c : Bool) : (started c s).errsrc = .inErr := rfl
@[simp] theorem started_errinfo (c : Bool) : (started c s).errinfo = 0x00000000#32 := rfl
@[simp] theorem started_perr (c : Bool) : (started c s).perr = s.perr := rfl
@[simp] theorem started_pcause (c : Bool) : (started c s).pcause = s.pcause := rfl
@[simp] theorem started_result (c : Bool) : (started c s).result = s.result := rfl
@[simp] theorem started_inlog (c : Bool) : (started c s).inlog = s.inlog := rfl
@[simp] theorem started_sinklog (c : Bool) : (started c s).sinklog = s.sinklog := rfl
@[simp] theorem started_rdata (c : Bool) : (started c s).rdata = s.rdata := rfl
@[simp] theorem started_dpOut (c : Bool) : (started c s).dpOut = s.dpOut := rfl
@[simp] theorem started_agenda (c : Bool) : (started c s).agenda = s.agenda := rfl
@[simp] theorem started_recurring (c : Bool) : (started c s).recurring = s.recurring := rfl
@[simp] theorem started_freeCtr (c : Bool) : (started c s).freeCtr = s.freeCtr := rfl

@[simp] theorem logInput_cfg (a : InAnswer) : (logInput a s).cfg = s.cfg := rfl
@[simp] theorem logInput_table (a : InAnswer) : (logInput a s).table = s.table := rfl
@[simp] theorem logInput_acc (a : InAnswer) : (logInput a s).acc = s.acc := rfl
@[simp] theorem logInput_count (a : InAnswer) : (logInput a s).count = s.count := rfl
@[simp] theorem logInput_buf (a : InAnswer) : (logInput a s).buf = s.buf := rfl
@[simp] theorem logInput_buflen (a : InAnswer) : (logInput a s).buflen = s.buflen := rfl
@[simp] theorem logInput_phase (a : InAnswer) : (logInput a s).phase = s.phase := rfl
@[simp] theorem logInput_copy (a : InAnswer) : (logInput a s).copy = s.copy := rfl
@[simp] theorem logInput_tblrdy (a : InAnswer) : (logInput a s).tblrdy = s.tblrdy := rfl
@[simp] theorem logInput_done (a : InAnswer) : (logInput a s).done = s.done := rfl
@[simp] theorem logInput_ioerr (a : InAnswer) : (logInput a s).ioerr = s.ioerr := rfl
@[simp] theorem logInput_errsrc (a : InAnswer) : (logInput a s).errsrc = s.errsrc := rfl
@[simp] theorem logInput_errinfo (a : InAnswer) : (logInput a s).errinfo = s.errinfo := rfl
@[simp] theorem logInput_perr (a : InAnswer) : (logInput a s).perr = s.perr := rfl
@[simp] theorem logInput_pcause (a : InAnswer) : (logInput a s).pcause = s.pcause := rfl
@[simp] theorem logInput_result (a : InAnswer) : (logInput a s).result = s.result := rfl
@[simp] theorem logInput_inlog (a : InAnswer) : (logInput a s).inlog = s.inlog ++ [a] := rfl
@[simp] theorem logInput_sinklog (a : InAnswer) : (logInput a s).sinklog = s.sinklog := rfl
@[simp] theorem logInput_rdata (a : InAnswer) : (logInput a s).rdata = s.rdata := rfl
@[simp] theorem logInput_dpOut (a : InAnswer) : (logInput a s).dpOut = s.dpOut := rfl
@[simp] theorem logInput_agenda (a : InAnswer) : (logInput a s).agenda = s.agenda := rfl
@[simp] theorem logInput_recurring (a : InAnswer) : (logInput a s).recurring = s.recurring := rfl
@[simp] theorem logInput_freeCtr (a : InAnswer) : (logInput a s).freeCtr = s.freeCtr := rfl

@[simp] theorem logSinkAnswer_cfg (a : SinkAnswer) : (logSinkAnswer a s).cfg = s.cfg := rfl
@[simp] theorem logSinkAnswer_table (a : SinkAnswer) : (logSinkAnswer a s).table = s.table := rfl
@[simp] theorem logSinkAnswer_acc (a : SinkAnswer) : (logSinkAnswer a s).acc = s.acc := rfl
@[simp] theorem logSinkAnswer_count (a : SinkAnswer) : (logSinkAnswer a s).count = s.count := rfl
@[simp] theorem logSinkAnswer_buf (a : SinkAnswer) : (logSinkAnswer a s).buf = s.buf := rfl
@[simp] theorem logSinkAnswer_buflen (a : SinkAnswer) : (logSinkAnswer a s).buflen = s.buflen := rfl
@[simp] theorem logSinkAnswer_phase (a : SinkAnswer) : (logSinkAnswer a s).phase = s.phase := rfl
@[simp] theorem logSinkAnswer_copy (a : SinkAnswer) : (logSinkAnswer a s).copy = s.copy := rfl
@[simp] theorem logSinkAnswer_tblrdy (a : SinkAnswer) : (logSinkAnswer a s).tblrdy = s.tblrdy := rfl
@[simp] theorem logSinkAnswer_done (a : SinkAnswer) : (logSinkAnswer a s).done = s.done := rfl
@[simp] theorem logSinkAnswer_ioerr (a : SinkAnswer) : (logSinkAnswer a s).ioerr = s.ioerr := rfl
@[simp] theorem logSinkAnswer_errsrc (a : SinkAnswer) : (logSinkAnswer a s).errsrc = s.errsrc := rfl
@[simp] theorem logSinkAnswer_errinfo (a : SinkAnswer) : (logSinkAnswer a s).errinfo = s.errinfo := rfl
@[simp] theorem logSinkAnswer_perr (a : SinkAnswer) : (logSinkAnswer a s).perr = s.perr := rfl
@[simp] theorem logSinkAnswer_pcause (a : SinkAnswer) : (logSinkAnswer a s).pcause = s.pcause := rfl
@[simp] theorem logSinkAnswer_result (a : SinkAnswer) : (logSinkAnswer a s).result = s.result := rfl
@[simp] theorem logSinkAnswer_inlog (a : SinkAnswer) : (logSinkAnswer a s).inlog = s.inlog := rfl
@[simp] theorem logSinkAnswer_sinklog (a : SinkAnswer) : (logSinkAnswer a s).sinklog = answerLast a s.sinklog := rfl
@[simp] theorem logSinkAnswer_rdata (a : SinkAnswer) : (logSinkAnswer a s).rdata = s.rdata := rfl
@[simp] theorem logSinkAnswer_dpOut (a : SinkAnswer) : (logSinkAnswer a s).dpOut = s.dpOut := rfl
@[simp] theorem logSinkAnswer_agenda (a : SinkAnswer) : (logSinkAnswer a s).agenda = s.agenda := rfl
@[simp] theorem logSinkAnswer_recurring (a : SinkAnswer) : (logSinkAnswer a s).recurring = s.recurring := rfl
@[simp] theorem logSinkAnswer_freeCtr (a : SinkAnswer) : (logSinkAnswer a s).freeCtr = s.freeCtr := rfl

@[simp] theorem storeChunk_cfg (b : List Byte) : (storeChunk b s).cfg = s.cfg := rfl
@[simp] theorem storeChunk_table (b : List Byte) : (storeChunk b s).table = s.table := rfl
@[simp] theorem storeChunk_acc (b : List Byte) : (storeChunk b s).acc = s.acc := rfl
@[simp] theorem storeChunk_count (b : List Byte) : (storeChunk b s).count = s.count := rfl
@[simp] theorem storeChunk_buf (b : List Byte) : (storeChunk b s).buf = writeBuf s.buf b := rfl
@[simp] theorem storeChunk_buflen (b : List Byte) : (storeChunk b s).buflen = answerLength b := rfl
@[simp] theorem storeChunk_phase (b : List Byte) : (storeChunk b s).phase = s.phase := rfl
@[simp] theorem storeChunk_copy (b : List Byte) : (storeChunk b s).copy = s.copy := rfl
@[simp] theorem storeChunk_tblrdy (b : List Byte) : (storeChunk b s).tblrdy = s.tblrdy := rfl
@[simp] theorem storeChunk_done (b : List Byte) : (storeChunk b s).done = s.done := rfl
@[simp] theorem storeChunk_ioerr (b : List Byte) : (storeChunk b s).ioerr = s.ioerr := rfl
@[simp] theorem storeChunk_errsrc (b : List Byte) : (storeChunk b s).errsrc = s.errsrc := rfl
@[simp] theorem storeChunk_errinfo (b : List Byte) : (storeChunk b s).errinfo = s.errinfo := rfl
@[simp] theorem storeChunk_perr (b : List Byte) : (storeChunk b s).perr = s.perr := rfl
@[simp] theorem storeChunk_pcause (b : List Byte) : (storeChunk b s).pcause = s.pcause := rfl
@[simp] theorem storeChunk_result (b : List Byte) : (storeChunk b s).result = s.result := rfl
@[simp] theorem storeChunk_inlog (b : List Byte) : (storeChunk b s).inlog = s.inlog := rfl
@[simp] theorem storeChunk_sinklog (b : List Byte) : (storeChunk b s).sinklog = s.sinklog := rfl
@[simp] theorem storeChunk_rdata (b : List Byte) : (storeChunk b s).rdata = s.rdata := rfl
@[simp] theorem storeChunk_dpOut (b : List Byte) : (storeChunk b s).dpOut = s.dpOut := rfl
@[simp] theorem storeChunk_agenda (b : List Byte) : (storeChunk b s).agenda = s.agenda := rfl
@[simp] theorem storeChunk_recurring (b : List Byte) : (storeChunk b s).recurring = s.recurring := rfl
@[simp] theorem storeChunk_freeCtr (b : List Byte) : (storeChunk b s).freeCtr = s.freeCtr := rfl

@[simp] theorem issueSinkWrite_cfg (n : Nat) : (issueSinkWrite n s).cfg = s.cfg := rfl
@[simp] theorem issueSinkWrite_table (n : Nat) : (issueSinkWrite n s).table = s.table := rfl
@[simp] theorem issueSinkWrite_acc (n : Nat) : (issueSinkWrite n s).acc = s.acc := rfl
@[simp] theorem issueSinkWrite_count (n : Nat) : (issueSinkWrite n s).count = s.count := rfl
@[simp] theorem issueSinkWrite_buf (n : Nat) : (issueSinkWrite n s).buf = s.buf := rfl
@[simp] theorem issueSinkWrite_buflen (n : Nat) : (issueSinkWrite n s).buflen = s.buflen := rfl
@[simp] theorem issueSinkWrite_phase (n : Nat) : (issueSinkWrite n s).phase = .wrwait := rfl
@[simp] theorem issueSinkWrite_copy (n : Nat) : (issueSinkWrite n s).copy = s.copy := rfl
@[simp] theorem issueSinkWrite_tblrdy (n : Nat) : (issueSinkWrite n s).tblrdy = s.tblrdy := rfl
@[simp] theorem issueSinkWrite_done (n : Nat) : (issueSinkWrite n s).done = s.done := rfl
@[simp] theorem issueSinkWrite_ioerr (n : Nat) : (issueSinkWrite n s).ioerr = s.ioerr := rfl
@[simp] theorem issueSinkWrite_errsrc (n : Nat) : (issueSinkWrite n s).errsrc = s.errsrc := rfl
@[simp] theorem issueSinkWrite_errinfo (n : Nat) : (issueSinkWrite n s).errinfo = s.errinfo := rfl
@[simp] theorem issueSinkWrite_perr (n : Nat) : (issueSinkWrite n s).perr = s.perr := rfl
@[simp] theorem issueSinkWrite_pcause (n : Nat) : (issueSinkWrite n s).pcause = s.pcause := rfl
@[simp] theorem issueSinkWrite_result (n : Nat) : (issueSinkWrite n s).result = s.result := rfl
@[simp] theorem issueSinkWrite_inlog (n : Nat) : (issueSinkWrite n s).inlog = s.inlog := rfl
@[simp] theorem issueSinkWrite_sinklog (n : Nat) :
    (issueSinkWrite n s).sinklog = s.sinklog ++ [{ n := BitVec.ofNat 32 n, bytes := sinkWriteData s n, answer := none }] := rfl
@[simp] theorem issueSinkWrite_rdata (n : Nat) : (issueSinkWrite n s).rdata = s.rdata := rfl
@[simp] theorem issueSinkWrite_dpOut (n : Nat) : (issueSinkWrite n s).dpOut = s.dpOut := rfl
@[simp] theorem issueSinkWrite_agenda (n : Nat) : (issueSinkWrite n s).agenda = s.agenda := rfl
@[simp] theorem issueSinkWrite_recurring (n : Nat) : (issueSinkWrite n s).recurring = s.recurring := rfl
@[simp] theorem issueSinkWrite_freeCtr (n : Nat) : (issueSinkWrite n s).freeCtr = s.freeCtr := rfl

@[simp] theorem resetState_cfg : (resetState s).cfg = s.cfg := rfl
@[simp] theorem resetState_table : (resetState s).table = tableAfterReset s.freeCtr s.cfg.tableImpl := rfl
@[simp] theorem resetState_acc : (resetState s).acc = Config.freeAcc s.freeCtr := rfl
@[simp] theorem resetState_count : (resetState s).count = 0#64 := rfl
@[simp] theorem resetState_buf : (resetState s).buf = (List.range s.cfg.bufSize).map (Config.freeBuf s.freeCtr) := rfl
@[simp] theorem resetState_buflen : (resetState s).buflen = Config.freeBufLen s.freeCtr := rfl
@[simp] theorem resetState_phase : (resetState s).phase = phaseAfterReset s.cfg.tableImpl := rfl
@[simp] theorem resetState_copy : (resetState s).copy = false := rfl
@[simp] theorem resetState_tblrdy : (resetState s).tblrdy = tblrdyAfterReset s.cfg.tableImpl := rfl
@[simp] theorem resetState_done : (resetState s).done = false := rfl
@[simp] theorem resetState_ioerr : (resetState s).ioerr = false := rfl
@[simp] theorem resetState_errsrc : (resetState s).errsrc = .inErr := rfl
@[simp] theorem resetState_errinfo : (resetState s).errinfo = 0x00000000#32 := rfl
@[simp] theorem resetState_perr : (resetState s).perr = false := rfl
@[simp] theorem resetState_pcause : (resetState s).pcause = .noError := rfl
@[simp] theorem resetState_result : (resetState s).result = 0x00000000#32 := rfl
@[simp] theorem resetState_inlog : (resetState s).inlog = s.inlog := rfl
@[simp] theorem resetState_sinklog : (resetState s).sinklog = s.sinklog := rfl
@[simp] theorem resetState_rdata : (resetState s).rdata = s.rdata := rfl
@[simp] theorem resetState_dpOut : (resetState s).dpOut = s.dpOut := rfl
@[simp] theorem resetState_agenda : (resetState s).agenda = s.agenda := rfl
@[simp] theorem resetState_recurring : (resetState s).recurring = s.recurring := rfl
@[simp] theorem resetState_freeCtr : (resetState s).freeCtr = s.freeCtr + 1 := rfl

@[simp] theorem State.takeEvent_cfg : s.takeEvent.cfg = s.cfg := rfl
@[simp] theorem State.takeEvent_table : s.takeEvent.table = s.table := rfl
@[simp] theorem State.takeEvent_acc : s.takeEvent.acc = s.acc := rfl
@[simp] theorem State.takeEvent_count : s.takeEvent.count = s.count := rfl
@[simp] theorem State.takeEvent_buf : s.takeEvent.buf = s.buf := rfl
@[simp] theorem State.takeEvent_buflen : s.takeEvent.buflen = s.buflen := rfl
@[simp] theorem State.takeEvent_phase : s.takeEvent.phase = s.phase := rfl
@[simp] theorem State.takeEvent_copy : s.takeEvent.copy = s.copy := rfl
@[simp] theorem State.takeEvent_tblrdy : s.takeEvent.tblrdy = s.tblrdy := rfl
@[simp] theorem State.takeEvent_done : s.takeEvent.done = s.done := rfl
@[simp] theorem State.takeEvent_ioerr : s.takeEvent.ioerr = s.ioerr := rfl
@[simp] theorem State.takeEvent_errsrc : s.takeEvent.errsrc = s.errsrc := rfl
@[simp] theorem State.takeEvent_errinfo : s.takeEvent.errinfo = s.errinfo := rfl
@[simp] theorem State.takeEvent_perr : s.takeEvent.perr = s.perr := rfl
@[simp] theorem State.takeEvent_pcause : s.takeEvent.pcause = s.pcause := rfl
@[simp] theorem State.takeEvent_result : s.takeEvent.result = s.result := rfl
@[simp] theorem State.takeEvent_inlog : s.takeEvent.inlog = s.inlog := rfl
@[simp] theorem State.takeEvent_sinklog : s.takeEvent.sinklog = s.sinklog := rfl
@[simp] theorem State.takeEvent_rdata : s.takeEvent.rdata = s.rdata := rfl
@[simp] theorem State.takeEvent_dpOut : s.takeEvent.dpOut = s.dpOut := rfl
@[simp] theorem State.takeEvent_agenda : s.takeEvent.agenda = s.upcoming.tail := rfl
@[simp] theorem State.takeEvent_recurring : s.takeEvent.recurring = s.recurring := rfl
@[simp] theorem State.takeEvent_freeCtr : s.takeEvent.freeCtr = s.freeCtr := rfl

end Sys2Proof.Machine
end

