-- ==== Sys2Proof/Laws/Ops.lean ====
section
/-!
SUPPORT. What each shared operation can do, said once.
-/

namespace Sys2Proof.Machine

/-- A guarded step answers a next state exactly where it is enabled. -/
@[simp] theorem whenEnabled_eq_next (p : Bool) (r t : State) : whenEnabled p r = .next t ↔ p = true ∧ r = t := by
  cases p <;> simp [whenEnabled]

/-- A guarded step never faults. -/
@[simp] theorem whenEnabled_ne_fault (p : Bool) (r : State) (f : Fault) : whenEnabled p r ≠ .fault f := by
  cases p <;> simp [whenEnabled]

/-- A guarded step refuses exactly where it is not enabled, under one name. -/
@[simp] theorem whenEnabled_eq_refused (p : Bool) (r : State) (q : Refusal) :
    whenEnabled p r = .refused q ↔ p = false ∧ q = .notEnabled := by
  cases p <;> simp [whenEnabled, eq_comm]

/-- `BUSY` by the phases that are not computing (10_state.md R23). -/
theorem busy_eq_false_iff (s : State) : busy s = false ↔ s.phase = .idle ∨ s.phase = .tblgen := by
  cases h : s.phase <;> simp [busy, h]

/-- `BUSY` by the computing phases (R23). -/
theorem busy_eq_true_iff (s : State) : busy s = true ↔ s.phase = .rdwait ∨ s.phase = .wrwait ∨ s.phase = .proc := by
  cases h : s.phase <;> simp [busy, h]

/-- A rejected access touches `RDATA`, `PERR` and `PCAUSE` only (60_exceptions.md R186). -/
theorem rejectAccess_eq (a : HostAccess) (c : PCause) (s : State) :
    rejectAccess a c s = { s with
      rdata := match a with
        | .read _ => 0x00000000#32
        | .write _ _ => s.rdata
      pcause := if s.perr then s.pcause else c
      perr := true } := by
  cases a <;> rfl

/-- Every outcome of a legal command word (30_encoding.md R86 cases 7b to 7e). -/
theorem startCommand_cases (c : Bool) (s : State) :
    (s.phase = .idle ∧ startCommand c s = started c s) ∨
    (s.phase = .tblgen ∧ startCommand c s = raiseProtocolError .cmdTblgen s) ∨
    (busy s = true ∧ startCommand c s = raiseProtocolError .cmdBusy s) := by
  cases h : s.phase <;> simp [startCommand, busy, h]

/-- Every outcome of the mux (41_stream_accumulator.md R125). -/
theorem routeChunk_cases (n : Nat) (s : State) :
    (sinkWriteEnable s n = true ∧ routeChunk n s = issueSinkWrite n s) ∨
    (sinkWriteEnable s n = false ∧ routeChunk n s = { s with phase := .proc }) := by
  cases h : sinkWriteEnable s n <;> simp [routeChunk, h]

/-- A chunk that fits leaves `BUF` at its size. -/
theorem writeBuf_length (buf b : List Byte) (h : b.length ≤ buf.length) : (writeBuf buf b).length = buf.length := by
  simp [writeBuf]; omega

/-- The stored bytes of a chunk. -/
@[simp] theorem writeBuf_take (buf b : List Byte) : (writeBuf buf b).take b.length = b := by simp [writeBuf]

/-- Reading one byte after a chunk is stored: a byte of the chunk, or the old byte. -/
theorem writeBuf_getElem? (buf b : List Byte) (j : Nat) :
    (writeBuf buf b)[j]? = if j < b.length then b[j]? else buf[j]? := by
  unfold writeBuf
  split
  · rw [List.getElem?_append_left ‹_›]
  · rw [List.getElem?_append_right (by omega), List.getElem?_drop]
    congr 1; omega

/-- A length below 2^32 is its word's value. -/
theorem answerLength_toNat (b : List Byte) (h : b.length < 2 ^ 32) : (answerLength b).toNat = b.length := by
  simp [answerLength]; omega

/-- The answer goes to the last entry of the sink log. -/
@[simp] theorem answerLast_append (a : SinkAnswer) (l : List SinkEntry) (e : SinkEntry) :
    answerLast a (l ++ [e]) = l ++ [{ e with answer := some a }] := by
  induction l with
  | nil => rfl
  | cons x l ih =>
    cases l with
    | nil => rfl
    | cons y l => simpa [answerLast] using ih

/-- With an event on the agenda, that one is next. -/
theorem upcoming_of_agenda {s : State} {ev : Event} {rest : List Event} (h : s.agenda = ev :: rest) :
    s.upcoming = ev :: rest := by simp [State.upcoming, h]

/-- With an empty agenda the recurring events begin again. -/
theorem upcoming_of_recurring {s : State} (h : s.agenda = []) : s.upcoming = s.recurring := by
  simp [State.upcoming, h]

/-- The next event and what remains, from the events to come. -/
theorem nextEvent_takeEvent {s : State} {ev : Event} {rest : List Event} (h : s.upcoming = ev :: rest) :
    nextEvent s = ev ∧ s.takeEvent = { s with agenda := rest } := by simp [nextEvent, State.takeEvent, h]

/-- With no event to come the core steps by itself, and nothing is taken off. -/
theorem nextEvent_takeEvent_none {s : State} (h : s.agenda = []) (h' : s.recurring = []) :
    nextEvent s = .internal ∧ s.takeEvent = s := by
  cases s; simp_all [nextEvent, State.takeEvent, State.upcoming]

/-- `BUF` after a RESET step has `BUF_SIZE` bytes. -/
theorem resetState_buf_length (s : State) : (resetState s).buf.length = (resetState s).cfg.bufSize := by simp

/-- The code of a phase stands for that phase. -/
@[simp] theorem phaseOfCode_phaseCode (p : Phase) : phaseOfCode (phaseCode p) = some p := by cases p <;> rfl

/-- No phase has a reserved code (10_state.md R22). -/
theorem phaseCode_lt (p : Phase) : (phaseCode p).toNat < 5 := by cases p <;> decide

end Sys2Proof.Machine
end

