-- ==== Sys2Proof/Laws/Exec.lean ====
section
/-!
SUPPORT. One lemma per instruction: exactly when `exec` answers a next state, and which. The proofs cite these rather
than unfold the meanings.
-/

namespace Sys2Proof.Machine

variable (s t : State)

theorem exec_compute_next : exec .compute s = .next t ↔ startCommand false s = t := by simp [exec, execCompute]

theorem exec_computeCopy_next : exec .computeCopy s = .next t ↔ startCommand true s = t := by
  simp [exec, execComputeCopy]

theorem exec_cmdIllegal_next (w : Word) :
    exec (.cmdIllegal w) s = .next t ↔ commandLegal w = false ∧ raiseProtocolError .cmdIllegal s = t := by
  simp [exec, execCmdIllegal, rejectAccess]

theorem exec_rdStatus_next : exec .rdStatus s = .next t ↔ returnRead (statusWord s) s = t := by
  simp [exec, execRdStatus]

theorem exec_rdResult_next : exec .rdResult s = .next t ↔ returnRead s.result s = t := by simp [exec, execRdResult]

theorem exec_rdCountLo_next : exec .rdCountLo s = .next t ↔ returnRead (countLo s.count) s = t := by
  simp [exec, execRdCountLo]

theorem exec_rdCountHi_next : exec .rdCountHi s = .next t ↔ returnRead (countHi s.count) s = t := by
  simp [exec, execRdCountHi]

theorem exec_rdErrinfo_next : exec .rdErrinfo s = .next t ↔ returnRead s.errinfo s = t := by
  simp [exec, execRdErrinfo]

theorem exec_rdTable_next (i : Byte) :
    exec (.rdTable i) s = .next t ↔
      (s.tblrdy = true ∧ returnRead (tableAt s.table i) s = t) ∨
      (s.tblrdy = false ∧ returnRead 0x00000000#32 (raiseProtocolError .tblNotReady s) = t) := by
  cases h : s.tblrdy <;> simp [exec, execRdTable, rejectAccess, h]

theorem exec_busIllegal_next (a : HostAccess) :
    exec (.busIllegal a) s = .next t ↔ ∃ c, busCause a = some c ∧ rejectAccess a c s = t := by
  cases h : busCause a <;> simp [exec, execBusIllegal, h]

theorem exec_tblGen_next :
    exec .tblGen s = .next t ↔
      s.phase = .tblgen ∧ { s with table := crcTable, tblrdy := true, phase := .idle } = t := by
  simp [exec, execTblGen]

theorem exec_rdResp_next (b : List Byte) :
    exec (.rdResp b) s = .next t ↔
      (s.phase = .rdwait ∧ b.length ≤ s.cfg.bufSize) ∧
        routeChunk b.length (storeChunk b (logInput (.data b) s)) = t := by
  simp [exec, execRdResp]

theorem exec_rdLenerr_next (b : List Byte) :
    exec (.rdLenerr b) s = .next t ↔
      ((s.phase = .rdwait ∧ s.cfg.bufSize < b.length) ∧ b.length < 2 ^ 32) ∧
        raiseIOError .inLen (answerLength b) (logInput (.data b) s) = t := by
  simp [exec, execRdLenerr]

theorem exec_rdErr_next (e : Word) :
    exec (.rdErr e) s = .next t ↔ s.phase = .rdwait ∧ raiseIOError .inErr e (logInput (.err e) s) = t := by
  simp [exec, execRdErr]

theorem exec_wrAck_next :
    exec .wrAck s = .next t ↔ s.phase = .wrwait ∧ { logSinkAnswer .ack s with phase := .proc } = t := by
  simp [exec, execWrAck]

theorem exec_wrErr_next (e : Word) :
    exec (.wrErr e) s = .next t ↔ s.phase = .wrwait ∧ raiseIOError .sinkErr e (logSinkAnswer (.err e) s) = t := by
  simp [exec, execWrErr]

theorem exec_chunk_next :
    exec .chunk s = .next t ↔
      (s.phase = .proc ∧ s.buflen ≠ 0#32) ∧
        { s with
          count := s.count + s.buflen.setWidth 64
          acc := fold s.table s.acc (chunkBytes s)
          phase := .rdwait } = t := by
  simp [exec, execChunk]

theorem exec_finish_next :
    exec .finish s = .next t ↔
      (s.phase = .proc ∧ s.buflen = 0#32) ∧ { s with result := ~~~ s.acc, done := true, phase := .idle } = t := by
  simp [exec, execFinish]

theorem exec_reset_next : exec .reset s = .next t ↔ resetState s = t := by simp [exec, execReset]

theorem exec_reduceStep_next (v : Word) : exec (.reduceStep v) s = .next t ↔ { s with dpOut := reduceStep v } = t := by
  simp [exec, execReduceStep]

theorem exec_reduce8_next (i : Byte) : exec (.reduce8 i) s = .next t ↔ { s with dpOut := reduce8 i } = t := by
  simp [exec, execReduce8]

theorem exec_byteUpdate_next (acc : Word) (b : Byte) :
    exec (.byteUpdate acc b) s = .next t ↔ { s with dpOut := byteUpdate s.table acc b } = t := by
  simp [exec, execByteUpdate]

/-- No instruction faults: `stuck` is raised by `step` alone. -/
theorem exec_ne_fault (i : Instr) (f : Fault) : exec i s ≠ .fault f := by
  cases i
  case rdTable k => cases h : s.tblrdy <;> simp [exec, execRdTable, h]
  case busIllegal a => cases h : busCause a <;> simp [exec, execBusIllegal, h]
  all_goals
    simp [exec, execCompute, execComputeCopy, execCmdIllegal, execRdStatus, execRdResult, execRdCountLo, execRdCountHi,
      execRdErrinfo, execTblGen, execRdResp, execRdLenerr, execRdErr, execWrAck, execWrErr, execChunk, execFinish,
      execReset, execReduceStep, execReduce8, execByteUpdate]

/-- A step that answers a next state ran one decoded instruction. -/
theorem step_next (h : step s = .next t) :
    ∃ i, decode (decodeCtx s) (transactionOf (nextEvent s) s.phase) = .instr i ∧ exec i s.takeEvent = .next t := by
  unfold step at h
  split at h
  · exact ⟨_, ‹_›, h⟩
  · split at h <;> simp at h

end Sys2Proof.Machine
end

