-- ==== Sys2Proof/Laws/Cases.lean ====
section
/-!
SUPPORT. Everything one instruction can do to the state, said once: the form of every next state, with the guard of the
step that leads to it.
-/

namespace Sys2Proof.Machine

/-- The next states of all instructions. The first three forms touch `RDATA`, `PERR`, `PCAUSE` and `dpOut` only: legal
reads, rejected accesses and the datapath rows. -/
theorem exec_cases {i : Instr} {s t : State} (h : exec i s = .next t) :
    (∃ v, t = { s with rdata := v }) ∨
    (∃ v c, t = { s with rdata := v, perr := true, pcause := if s.perr then s.pcause else c }) ∨
    (∃ v, t = { s with dpOut := v }) ∨
    ((i = .compute ∨ i = .computeCopy) ∧ s.phase = .idle ∧ ∃ c, t = started c s) ∨
    (i = .tblGen ∧ s.phase = .tblgen ∧ t = { s with table := crcTable, tblrdy := true, phase := .idle }) ∨
    (∃ b, i = .rdResp b ∧ s.phase = .rdwait ∧ b.length ≤ s.cfg.bufSize ∧
      t = routeChunk b.length (storeChunk b (logInput (.data b) s))) ∨
    (∃ b, i = .rdLenerr b ∧ s.phase = .rdwait ∧
      t = raiseIOError .inLen (answerLength b) (logInput (.data b) s)) ∨
    (∃ e, i = .rdErr e ∧ s.phase = .rdwait ∧ t = raiseIOError .inErr e (logInput (.err e) s)) ∨
    (i = .wrAck ∧ s.phase = .wrwait ∧ t = { logSinkAnswer .ack s with phase := .proc }) ∨
    (∃ e, i = .wrErr e ∧ s.phase = .wrwait ∧ t = raiseIOError .sinkErr e (logSinkAnswer (.err e) s)) ∨
    (i = .chunk ∧ s.phase = .proc ∧ s.buflen ≠ 0#32 ∧ t = { s with
      count := s.count + s.buflen.setWidth 64
      acc := fold s.table s.acc (chunkBytes s)
      phase := .rdwait }) ∨
    (i = .finish ∧ s.phase = .proc ∧ s.buflen = 0#32 ∧
      t = { s with result := ~~~ s.acc, done := true, phase := .idle }) ∨
    (i = .reset ∧ t = resetState s) := by
  have pe : ∀ c, raiseProtocolError c s =
      { s with rdata := s.rdata, perr := true, pcause := if s.perr then s.pcause else c } := fun _ => rfl
  cases i with
  | compute =>
    rw [exec_compute_next] at h; subst h
    rcases startCommand_cases false s with ⟨h1, h2⟩ | ⟨_, h2⟩ | ⟨_, h2⟩ <;> rw [h2]
    · simp [h1]
    · exact .inr (.inl ⟨_, _, pe _⟩)
    · exact .inr (.inl ⟨_, _, pe _⟩)
  | computeCopy =>
    rw [exec_computeCopy_next] at h; subst h
    rcases startCommand_cases true s with ⟨h1, h2⟩ | ⟨_, h2⟩ | ⟨_, h2⟩ <;> rw [h2]
    · simp [h1]
    · exact .inr (.inl ⟨_, _, pe _⟩)
    · exact .inr (.inl ⟨_, _, pe _⟩)
  | rdTable k =>
    rw [exec_rdTable_next] at h
    rcases h with ⟨_, rfl⟩ | ⟨_, rfl⟩
    · exact .inl ⟨_, rfl⟩
    · exact .inr (.inl ⟨_, _, rfl⟩)
  | busIllegal a =>
    rw [exec_busIllegal_next] at h
    obtain ⟨c, _, rfl⟩ := h
    exact .inr (.inl ⟨_, _, rejectAccess_eq _ _ _⟩)
  | cmdIllegal w => rw [exec_cmdIllegal_next] at h; obtain ⟨_, rfl⟩ := h; exact .inr (.inl ⟨_, _, rfl⟩)
  | rdStatus => rw [exec_rdStatus_next] at h; subst h; exact .inl ⟨_, rfl⟩
  | rdResult => rw [exec_rdResult_next] at h; subst h; exact .inl ⟨_, rfl⟩
  | rdCountLo => rw [exec_rdCountLo_next] at h; subst h; exact .inl ⟨_, rfl⟩
  | rdCountHi => rw [exec_rdCountHi_next] at h; subst h; exact .inl ⟨_, rfl⟩
  | rdErrinfo => rw [exec_rdErrinfo_next] at h; subst h; exact .inl ⟨_, rfl⟩
  | tblGen => rw [exec_tblGen_next] at h; obtain ⟨_, rfl⟩ := h; simp [*]
  | rdResp b => rw [exec_rdResp_next] at h; obtain ⟨⟨_, _⟩, rfl⟩ := h; simp [*]
  | rdLenerr b => rw [exec_rdLenerr_next] at h; obtain ⟨⟨⟨_, _⟩, _⟩, rfl⟩ := h; simp [*]
  | rdErr e => rw [exec_rdErr_next] at h; obtain ⟨_, rfl⟩ := h; simp [*]
  | wrAck => rw [exec_wrAck_next] at h; obtain ⟨_, rfl⟩ := h; simp [*]
  | wrErr e => rw [exec_wrErr_next] at h; obtain ⟨_, rfl⟩ := h; simp [*]
  | chunk => rw [exec_chunk_next] at h; obtain ⟨⟨_, _⟩, rfl⟩ := h; simp [*]
  | finish => rw [exec_finish_next] at h; obtain ⟨⟨_, _⟩, rfl⟩ := h; simp [*]
  | reset => rw [exec_reset_next] at h; subst h; simp
  | reduceStep v => rw [exec_reduceStep_next] at h; subst h; exact .inr (.inr (.inl ⟨_, rfl⟩))
  | reduce8 v => rw [exec_reduce8_next] at h; subst h; exact .inr (.inr (.inl ⟨_, rfl⟩))
  | byteUpdate a v => rw [exec_byteUpdate_next] at h; subst h; exact .inr (.inr (.inl ⟨_, rfl⟩))

end Sys2Proof.Machine
end

