-- ==== Sys2Proof/Laws/Decode.lean ====
section
/-!
SUPPORT. The address and command decoders in terms of numbers, and the word a legal command is.
-/

namespace Sys2Proof

/-- The cause of a read, by its address as a number (30_encoding.md R86 cases 1, 2 and 4). -/
theorem busCause_read : ∀ a : Addr, busCause (.read a) =
    if a.toNat % 4 ≠ 0 then some .busMisaligned
    else if ¬ (a.toNat ≤ 0x014 ∨ (0x400 ≤ a.toNat ∧ a.toNat ≤ 0x7FC)) then some .busUnmapped
    else if a = 0x000#12 then some .busWoRead else none := by decide +kernel

/-- The cause of a write, by its address as a number (R86 cases 1 to 3); the data word does not matter. -/
theorem busCause_write (w : Word) (a : Addr) : busCause (.write a w) =
    if a.toNat % 4 ≠ 0 then some .busMisaligned
    else if ¬ (a.toNat ≤ 0x014 ∨ (0x400 ≤ a.toNat ∧ a.toNat ≤ 0x7FC)) then some .busUnmapped
    else if a ≠ 0x000#12 then some .busRoWrite else none := by
  have h : ∀ a : Addr, busCause (.write a 0x00000000#32) =
      if a.toNat % 4 ≠ 0 then some .busMisaligned
      else if ¬ (a.toNat ≤ 0x014 ∨ (0x400 ≤ a.toNat ∧ a.toNat ≤ 0x7FC)) then some .busUnmapped
      else if a ≠ 0x000#12 then some .busRoWrite else none := by decide +kernel
  exact h a

/-- The low two bits of an address are its remainder by 4. -/
theorem addr_low_bits : ∀ a : Addr, a.extractLsb' 0 2 ≠ 0#2 ↔ a.toNat % 4 ≠ 0 := by decide +kernel

/-- Where a mapped address lies: in the window, with its index, or at one of the five readable registers. -/
theorem mapped_read_address : ∀ a : Addr, a.toNat % 4 = 0 →
    (a.toNat ≤ 0x014 ∨ (0x400 ≤ a.toNat ∧ a.toNat ≤ 0x7FC)) → a ≠ 0x000#12 →
    inTableWindow a = decide (0x400 ≤ a.toNat) ∧
    (0x400 ≤ a.toNat → tableIndex a = BitVec.ofNat 8 ((a.toNat - 0x400) / 4)) ∧
    (¬ 0x400 ≤ a.toNat →
      a = 0x004#12 ∨ a = 0x008#12 ∨ a = 0x00C#12 ∨ a = 0x010#12 ∨ a = 0x014#12) := by decide +kernel

/-- A legal command word is one of two, told apart by `C` (R82). -/
theorem commandLegal_cases (w : Word) (h : commandLegal w = true) :
    (commandC w = false ∧ w = 0x00000001#32) ∨ (commandC w = true ∧ w = 0x00000011#32) := by
  simp only [commandLegal, Bool.and_eq_true, decide_eq_true_eq] at h
  have parts : w = w.extractLsb' 5 27 ++ (w.extractLsb' 4 1 ++ w.extractLsb' 0 4) := by
    ext i hi; simp; grind
  rw [h.1, h.2] at parts
  have one : ∀ x : BitVec 1, x = 0#1 ∨ x = 1#1 := by decide
  rcases one (w.extractLsb' 4 1) with hc | hc <;> rw [hc] at parts
  · left; subst parts; decide
  · right; subst parts; decide

/-- Illegal exactly where the word is neither command. -/
theorem commandLegal_eq_false_iff (w : Word) :
    commandLegal w = false ↔ w ≠ 0x00000001#32 ∧ w ≠ 0x00000011#32 := by
  constructor
  · intro h; constructor <;> (rintro rfl; revert h; decide)
  · intro h
    cases hw : commandLegal w
    · rfl
    · rcases commandLegal_cases w hw with ⟨_, e⟩ | ⟨_, e⟩
      · exact absurd e h.1
      · exact absurd e h.2

/-- A host access never decodes to a step of the core or of another agent. -/
theorem decodeHost_ne_reset (a : HostAccess) : decodeHost a ≠ .reset := by
  unfold decodeHost
  repeat' split
  all_goals simp

end Sys2Proof
end

