-- ==== Sys2Proof/Laws/PerInstr.lean ====
section
/-!
SUPPORT. The statements made of every instruction, one lemma per constructor.

`MatchesRow`: the transaction of a well-formed instruction carries the bits its row of spec/opcode_table.json asks for,
in the row's width.
-/

namespace Sys2Proof.Laws

/-- What the encoder writes matches the row's "match" under its "mask", and fits the row's width. -/
def MatchesRow.Statement (i : Instr) : Prop :=
  ∀ (c : DecodeCtx) (tx : Transaction) (r : OpcodeRow), wellFormed c i = true → encode i = some tx →
    opcodeRow i = some r → selectingBits r tx &&& r.mask = r.pattern ∧ selectingBits r tx < 2 ^ r.bits

theorem MatchesRow.compute : MatchesRow.Statement .compute := by
  rintro c tx r - ⟨⟩ ⟨⟩; decide

theorem MatchesRow.computeCopy : MatchesRow.Statement .computeCopy := by
  rintro c tx r - ⟨⟩ ⟨⟩; decide

theorem MatchesRow.rdStatus : MatchesRow.Statement .rdStatus := by
  rintro c tx r - ⟨⟩ ⟨⟩; decide

theorem MatchesRow.rdResult : MatchesRow.Statement .rdResult := by
  rintro c tx r - ⟨⟩ ⟨⟩; decide

theorem MatchesRow.rdCountLo : MatchesRow.Statement .rdCountLo := by
  rintro c tx r - ⟨⟩ ⟨⟩; decide

theorem MatchesRow.rdCountHi : MatchesRow.Statement .rdCountHi := by
  rintro c tx r - ⟨⟩ ⟨⟩; decide

theorem MatchesRow.rdErrinfo : MatchesRow.Statement .rdErrinfo := by
  rintro c tx r - ⟨⟩ ⟨⟩; decide

theorem MatchesRow.tblGen : MatchesRow.Statement .tblGen := by
  rintro c tx r - ⟨⟩ ⟨⟩; decide

theorem MatchesRow.wrAck : MatchesRow.Statement .wrAck := by
  rintro c tx r - ⟨⟩ ⟨⟩; decide

theorem MatchesRow.chunk : MatchesRow.Statement .chunk := by
  rintro c tx r - ⟨⟩ ⟨⟩; decide

theorem MatchesRow.finish : MatchesRow.Statement .finish := by
  rintro c tx r - ⟨⟩ ⟨⟩; decide

theorem MatchesRow.reset : MatchesRow.Statement .reset := by
  rintro c tx r - ⟨⟩ ⟨⟩; decide

theorem MatchesRow.rdResp (b : List Byte) : MatchesRow.Statement (.rdResp b) := by
  rintro c tx r - ⟨⟩ ⟨⟩; simp [selectingBits]

theorem MatchesRow.rdLenerr (b : List Byte) : MatchesRow.Statement (.rdLenerr b) := by
  rintro c tx r - ⟨⟩ ⟨⟩; simp [selectingBits]

theorem MatchesRow.rdErr (e : Word) : MatchesRow.Statement (.rdErr e) := by
  rintro c tx r - ⟨⟩ ⟨⟩; simp [selectingBits]

theorem MatchesRow.wrErr (e : Word) : MatchesRow.Statement (.wrErr e) := by
  rintro c tx r - ⟨⟩ ⟨⟩; simp [selectingBits]

theorem MatchesRow.cmdIllegal (w : Word) : MatchesRow.Statement (.cmdIllegal w) := by
  rintro c tx r - ⟨⟩ ⟨⟩
  exact ⟨Nat.and_zero _, w.isLt⟩

theorem MatchesRow.busIllegal (a : HostAccess) : MatchesRow.Statement (.busIllegal a) := by
  rintro c tx r - ⟨⟩ ⟨⟩
  cases a with
  | read a => exact ⟨Nat.and_zero _, a.isLt⟩
  | write a w => exact ⟨Nat.and_zero _, a.isLt⟩

theorem MatchesRow.rdTable (i : Byte) : MatchesRow.Statement (.rdTable i) := by
  rintro c tx r - ⟨⟩ ⟨⟩
  revert i; decide +kernel

theorem MatchesRow.reduceStep (v : Word) : MatchesRow.Statement (.reduceStep v) := by
  rintro c tx r - ⟨⟩

theorem MatchesRow.reduce8 (i : Byte) : MatchesRow.Statement (.reduce8 i) := by
  rintro c tx r - ⟨⟩

theorem MatchesRow.byteUpdate (acc : Word) (b : Byte) : MatchesRow.Statement (.byteUpdate acc b) := by
  rintro c tx r - ⟨⟩

end Sys2Proof.Laws
end

