-- ==== Sys2Proof/Tests/Slice0.lean ====
section
/-!
SUPPORT. The model's own tests. Expected values are the spec's: the encodings of 30_encoding.md, the table of
40_table_generator.md R104 and the vectors of 95_test_vectors.md (named L1, L2, ... as there). Then one witness for each
statement with hypotheses.
-/

open Sys2Proof Sys2Proof.Machine

namespace Sys2Proof.Tests

/-! ## Small states -/

/-- A booted block with `BUF_SIZE = 4`: `IDLE`, `STATUS = 0x40`. -/
def idle4 : State := powerUp { bufSize := 4, tableImpl := .rom, skipZeroLenWrite := false }

/-- The same with `SKIP_ZERO_LEN_WRITE = true`. -/
def idle4skip : State := powerUp { bufSize := 4, tableImpl := .rom, skipZeroLenWrite := true }

/-- A booted block with `BUF_SIZE = 1`. -/
def idle1 : State := powerUp { bufSize := 1, tableImpl := .rom, skipZeroLenWrite := false }

/-- In a computation, waiting for the input. -/
def reading (copy : Bool) : State := started copy idle4

/-- In a computation, the chunk `b` in `BUF`, to be folded. -/
def folding (copy : Bool) (b : List Byte) : State :=
  { storeChunk b (logInput (.data b) (reading copy)) with phase := .proc }

/-- In a computation, the chunk `b` offered to the sink. -/
def writing (b : List Byte) : State := issueSinkWrite b.length (storeChunk b (logInput (.data b) (reading true)))

/-- A view of the next state. -/
def got {α : Type} (r : Result) (f : State → α) : Option α :=
  match r with
  | .next t => some (f t)
  | .fault _ => none
  | .refused _ => none

/-! ## WellFormed refuses -/

/-- `BUF_SIZE = 4`, `BUFLEN = 0`. -/
def ctx0 : DecodeCtx := { bufSize := 4, buflen := 0#32 }

/-- `BUF_SIZE = 4`, `BUFLEN = 3`. -/
def ctx3 : DecodeCtx := { bufSize := 4, buflen := 3#32 }

theorem test_wf_refuses_legal_word_as_illegal : wellFormed ctx0 (.cmdIllegal 0x00000011#32) = false := by decide
theorem test_wf_refuses_legal_read_as_illegal : wellFormed ctx0 (.busIllegal (.read 0x004#12)) = false := by decide
theorem test_wf_refuses_cmd_write_as_illegal : wellFormed ctx0 (.busIllegal (.write 0x000#12 2#32)) = false := by decide
theorem test_wf_refuses_long_rdResp : wellFormed ctx0 (.rdResp [1, 2, 3, 4, 5]) = false := by decide
theorem test_wf_refuses_short_rdLenerr : wellFormed ctx0 (.rdLenerr [1, 2, 3, 4]) = false := by decide
theorem test_wf_refuses_chunk_of_no_bytes : wellFormed ctx0 .chunk = false := by decide
theorem test_wf_refuses_finish_with_bytes : wellFormed ctx3 .finish = false := by decide

/-! ## Decoding of words written out from 30_encoding.md -/

theorem test_decode_compute :
    decode ctx0 (.bus (.write 0b000000000000#12 0b00000000000000000000000000000001#32)) = .instr .compute := by decide
theorem test_decode_computeCopy :
    decode ctx0 (.bus (.write 0b000000000000#12 0b00000000000000000000000000010001#32)) = .instr .computeCopy := by
  decide
theorem test_decode_cmdIllegal :
    decode ctx0 (.bus (.write 0b000000000000#12 0b00000000000000000000000000100001#32)) =
      .instr (.cmdIllegal 0x00000021#32) := by decide
theorem test_decode_rdStatus : decode ctx0 (.bus (.read 0b000000000100#12)) = .instr .rdStatus := by decide
theorem test_decode_rdResult : decode ctx0 (.bus (.read 0b000000001000#12)) = .instr .rdResult := by decide
theorem test_decode_rdCountLo : decode ctx0 (.bus (.read 0b000000001100#12)) = .instr .rdCountLo := by decide
theorem test_decode_rdCountHi : decode ctx0 (.bus (.read 0b000000010000#12)) = .instr .rdCountHi := by decide
theorem test_decode_rdErrinfo : decode ctx0 (.bus (.read 0b000000010100#12)) = .instr .rdErrinfo := by decide
theorem test_decode_rdTable : decode ctx0 (.bus (.read 0b011111111100#12)) = .instr (.rdTable 0xFF#8) := by decide
theorem test_decode_busIllegal_read :
    decode ctx0 (.bus (.read 0b100000000000#12)) = .instr (.busIllegal (.read 0x800#12)) := by decide
theorem test_decode_busIllegal_write :
    decode ctx0 (.bus (.write 0b000000000100#12 0#32)) = .instr (.busIllegal (.write 0x004#12 0#32)) := by decide
theorem test_decode_tblGen : decode ctx0 (.fsm 0b000001#6 .empty) = .instr .tblGen := by decide
theorem test_decode_rdResp : decode ctx0 (.fsm 0b001010#6 (.data [1, 2, 3, 4])) = .instr (.rdResp [1, 2, 3, 4]) := by
  decide
theorem test_decode_rdLenerr :
    decode ctx0 (.fsm 0b001010#6 (.data [1, 2, 3, 4, 5])) = .instr (.rdLenerr [1, 2, 3, 4, 5]) := by decide
theorem test_decode_rdErr : decode ctx0 (.fsm 0b010010#6 (.err 5#32)) = .instr (.rdErr 5#32) := by decide
theorem test_decode_wrAck : decode ctx0 (.fsm 0b011011#6 .empty) = .instr .wrAck := by decide
theorem test_decode_wrErr : decode ctx0 (.fsm 0b100011#6 (.err 0xBEEF#32)) = .instr (.wrErr 0xBEEF#32) := by decide
theorem test_decode_chunk : decode ctx3 (.fsm 0b000100#6 .empty) = .instr .chunk := by decide
theorem test_decode_finish : decode ctx0 (.fsm 0b000100#6 .empty) = .instr .finish := by decide
theorem test_decode_reset_any_phase : decode ctx0 (.fsm 0b101010#6 .empty) = .instr .reset := by decide

/-- R87: "`INTERNAL` in `IDLE`" has no step. -/
theorem test_decode_rejects_internal_in_idle : decode ctx0 (.fsm 0b000000#6 .empty) = .reject (.noStep 0#6) := by decide

/-- The table's rows as words, in the widths of `decodeTableWord` (log entry 10). -/
theorem test_table_words :
    [decodeTableWord 32 0x00000001, decodeTableWord 32 0x00000011, decodeTableWord 32 0x00000000,
      decodeTableWord 16 0x004, decodeTableWord 16 0x008, decodeTableWord 16 0x00C, decodeTableWord 16 0x010,
      decodeTableWord 16 0x014, decodeTableWord 16 0x400, decodeTableWord 16 0x000] =
    [some .compute, some .computeCopy, some (.cmdIllegal 0#32), some .rdStatus, some .rdResult, some .rdCountLo,
      some .rdCountHi, some .rdErrinfo, some (.rdTable 0#8), some (.busIllegal (.read 0#12))] := by decide
theorem test_table_selectors :
    [decodeTableWord 8 0b000001, decodeTableWord 8 0b001010, decodeTableWord 8 0b010010, decodeTableWord 8 0b011011,
      decodeTableWord 8 0b100011, decodeTableWord 8 0b000100, decodeTableWord 8 0b101000] =
    [some .tblGen, some (.rdResp []), some (.rdErr 0#32), some .wrAck, some (.wrErr 0#32), some .finish,
      some .reset] := by decide

/-! ## The datapath -/

/-- R104: the whole table. -/
theorem test_table_listed : crcTable.toList = listedTable := by decide +kernel

/-- L2.1. -/
theorem test_reduceStep :
    [0x00000000#32, 0x00000001#32, 0x00000002#32, 0x00000003#32, 0x80000000#32, 0xEDB88320#32, 0x12345678#32,
      0xFFFFFFFF#32, 0x2D02EF8D#32].map (fun v => got (exec (.reduceStep v) idle4) State.dpOut) =
    [0x00000000#32, 0xEDB88320#32, 0x00000001#32, 0xEDB88321#32, 0x40000000#32, 0x76DC4190#32, 0x091A2B3C#32,
      0x92477CDF#32, 0xFB39F4E6#32].map some := by decide +kernel

/-- L2.2. -/
theorem test_reduce8 :
    [0x01#8, 0x02#8, 0x40#8, 0x80#8, 0xFF#8].map (fun i => got (exec (.reduce8 i) idle4) State.dpOut) =
    [0x77073096#32, 0xEE0E612C#32, 0x76DC4190#32, 0xEDB88320#32, 0x2D02EF8D#32].map some := by decide +kernel

/-- L2.4. -/
theorem test_byteUpdate :
    [(0xFFFFFFFF#32, 0xFF#8), (0x12345678#32, 0x78#8), (0xFFFFFFFF#32, 0x31#8), (0xDEADBEEF#32, 0x5A#8)].map
      (fun p => got (exec (.byteUpdate p.1 p.2) idle4) State.dpOut) =
    [0x00FFFFFF#32, 0x00123456#32, 0x7C231048#32, 0xBBD5EABD#32].map some := by decide +kernel

/-- L2.5: "abc", "message digest" and 32 bytes of `FF`. -/
theorem test_crc_strings :
    crc [0x61, 0x62, 0x63] = 0x352441C2#32 ∧
    crc [0x6D, 0x65, 0x73, 0x73, 0x61, 0x67, 0x65, 0x20, 0x64, 0x69, 0x67, 0x65, 0x73, 0x74] = 0x20159D7F#32 ∧
    crc (List.replicate 32 0xFF#8) = 0xFF6CAB0B#32 := by decide +kernel

/-- R7: `COUNT` is `COUNT_W` bits wide. -/
theorem test_count_width : Count = BitVec Config.countW := rfl

/-! ## The steps, on L2.9 to L2.13 -/

theorem test_tblGen :
    got (exec .tblGen State.reset) (fun t => (statusWord t, tableAt t.table 0x01#8, t.table.toList == listedTable)) =
      some (0x00000040#32, 0x77073096#32, true) := by decide +kernel

theorem test_compute :
    got (exec .compute { idle4 with done := true, result := 7#32 }) (fun t => (statusWord t, t.acc, t.count, t.result)) =
      some (0x00000241#32, 0xFFFFFFFF#32, 0#64, 7#32) := by decide +kernel
theorem test_compute_busy : got (exec .compute (reading false)) statusWord = some 0x00001261#32 := by decide +kernel

theorem test_computeCopy : got (exec .computeCopy idle4) statusWord = some 0x000002C1#32 := by decide +kernel
theorem test_computeCopy_in_tblgen : got (exec .computeCopy State.reset) statusWord = some 0x00002120#32 := by
  decide +kernel

theorem test_rdResp :
    got (exec (.rdResp [0x31, 0x32, 0x33, 0x34]) (reading false)) (fun t => (statusWord t, t.buflen, t.buf)) =
      some (0x00000441#32, 4#32, [0x31, 0x32, 0x33, 0x34]) := by decide +kernel
theorem test_rdResp_copy_end_of_stream :
    got (exec (.rdResp []) (reading true)) (fun t => (statusWord t, t.sinklog)) =
      some (0x000003C1#32, [{ n := 0#32, bytes := [], answer := none }]) ∧
    got (exec (.rdResp []) (started true idle4skip)) (fun t => (statusWord t, t.sinklog)) =
      some (0x000004C1#32, []) := by decide +kernel

theorem test_wrAck :
    got (exec .wrAck (writing [0x61])) (fun t => (statusWord t, t.sinklog)) =
      some (0x000004C1#32, [{ n := 1#32, bytes := [0x61], answer := some .ack }]) := by decide +kernel

theorem test_chunk :
    got (exec .chunk (folding false [0x31, 0x32, 0x33, 0x34])) (fun t => (statusWord t, t.acc, t.count)) =
      some (0x00000241#32, 0x641C1F5C#32, 4#64) := by decide +kernel
theorem test_chunk_count_wraps :
    got (exec .chunk { folding false [0x31, 0x32] with count := 0xFFFFFFFFFFFFFFFF#64 }) State.count = some 1#64 := by
  decide +kernel

theorem test_finish :
    got (exec .finish { folding false [] with acc := 0x340BC6D9#32 }) (fun t => (statusWord t, t.result)) =
      some (0x00000042#32, 0xCBF43926#32) := by decide +kernel
theorem test_finish_copy : got (exec .finish (folding true [])) statusWord = some 0x000000C2#32 := by decide +kernel

theorem test_rdErr :
    got (exec (.rdErr 0x00000005#32) (reading false)) (fun t => (statusWord t, t.errinfo, t.count)) =
      some (0x00000044#32, 0x00000005#32, 0#64) := by decide +kernel
theorem test_rdLenerr :
    got (exec (.rdLenerr [0x31, 0x32, 0x33, 0x34, 0x35]) { reading false with count := 2#64 })
      (fun t => (statusWord t, t.errinfo, t.count)) = some (0x00000054#32, 0x00000005#32, 2#64) := by decide +kernel
theorem test_wrErr :
    got (exec (.wrErr 0x0000BEEF#32) (writing [0x61, 0x62, 0x63])) (fun t => (statusWord t, t.errinfo, t.count)) =
      some (0x000000CC#32, 0x0000BEEF#32, 0#64) := by decide +kernel

/-- The end of program P2: `RESULT = 414FA339`, `COUNT = 43`, `COPY = 1`, `DONE = 1`. -/
def afterP2 : State := { idle4 with result := 0x414FA339#32, count := 43#64, copy := true, done := true }

/-- L2.10. -/
theorem test_register_reads :
    [exec .rdStatus afterP2, exec .rdResult afterP2, exec .rdCountLo afterP2, exec .rdCountHi afterP2,
      exec .rdErrinfo afterP2].map (fun r => got r State.rdata) =
    [0x000000C2#32, 0x414FA339#32, 0x0000002B#32, 0x00000000#32, 0x00000000#32].map some := by decide +kernel
theorem test_count_hi :
    got (exec .rdCountHi { afterP2 with count := 0x0000000500000007#64 }) State.rdata = some 5#32 := by decide +kernel
theorem test_rdTable :
    [0x400#12, 0x404#12, 0x600#12, 0x7FC#12].map (fun a => got (exec (decodeHost (.read a)) afterP2) State.rdata) =
    [0x00000000#32, 0x77073096#32, 0xEDB88320#32, 0x2D02EF8D#32].map some := by decide +kernel
theorem test_rdTable_not_ready :
    got (exec (.rdTable 1#8) State.reset) (fun t => (statusWord t, t.rdata)) = some (0x00008120#32, 0#32) := by
  decide +kernel

/-- L2.12, the accesses of its first table. -/
theorem test_protocol_errors :
    [HostAccess.read 0x002#12, .write 0x401#12 1#32, .read 0x018#12, .read 0x800#12, .write 0x3FC#12 0#32,
      .write 0x004#12 0#32, .write 0x440#12 5#32, .read 0x000#12, .write 0x000#12 0#32, .write 0x000#12 2#32,
      .write 0x000#12 0x21#32, .write 0x000#12 0x80000001#32].map
      (fun a => got (exec (decodeHost a) idle4) statusWord) =
    [0x00006060#32, 0x00006060#32, 0x00005060#32, 0x00005060#32, 0x00005060#32, 0x00004060#32, 0x00004060#32,
      0x00007060#32, 0x00003060#32, 0x00003060#32, 0x00003060#32, 0x00003060#32].map some := by decide +kernel

/-- L2.12, precedence and stickiness. -/
theorem test_first_cause :
    got (exec (decodeHost (.write 0x006#12 1#32)) idle4) State.pcause = some .busMisaligned ∧
    got (exec (decodeHost (.write 0x000#12 2#32)) (reading false)) State.pcause = some .cmdIllegal ∧
    got (exec (decodeHost (.write 0x000#12 2#32)) { idle4 with perr := true, pcause := .busUnmapped }) State.pcause =
      some .busUnmapped := by decide +kernel

/-- L2.13. -/
theorem test_reset :
    got (exec .reset { writing [0x61] with
      perr := true, pcause := .cmdBusy, cfg := { bufSize := 4, tableImpl := .generate, skipZeroLenWrite := false } })
      (fun t => (statusWord t, t.result, t.count, t.errinfo)) = some (0x00000100#32, 0#32, 0#64, 0#32) := by
  decide +kernel
theorem test_reset_rom : got (exec .reset (writing [0x61])) statusWord = some 0x00000040#32 := by decide +kernel

/-! ## Stepping -/

/-- P1, step 2: the core takes TBL_GEN by itself. -/
theorem test_step_tblGen : got (step State.reset) statusWord = some 0x00000040#32 := by decide +kernel

/-- P1, step 4: a host access from the agenda. -/
theorem test_step_host :
    got (step { idle4 with agenda := [.host (.write 0x000#12 0x00000001#32), .internal] })
      (fun t => (statusWord t, t.agenda)) = some (0x00000241#32, [.internal]) := by decide +kernel

/-- R223, "An input that always returns more bytes": one more chunk, again and again. -/
def endless : State :=
  { reading true with
    agenda := streamEvents true false [[1, 2, 3, 4], [5]], recurring := streamEvents true false [[6]] }

/-- With the agenda empty the recurring events come from their beginning, and stay. -/
theorem test_step_recurring :
    got (step { endless with agenda := [] })
      (fun t => (statusWord t, t.buflen, t.agenda == [.sinkAck, .internal], t.recurring == endless.recurring)) =
      some (0x000003C1#32, 1#32, true, true) := by decide +kernel

/-- R90, R91. -/
theorem test_assembler :
    (expandPseudo 0 (.crc32 1)).map lineAccess =
      [.write 0x000#12 0x00000001#32, .read 0x004#12, .read 0x008#12] ∧
    (expandPseudo 2 .waitIdle).map lineAccess = [.read 0x004#12, .read 0x004#12, .read 0x004#12] ∧
    lineAccess (.lw 0 (regAddr (.table 0xFF#8))) = .read 0x7FC#12 ∧
    waitIdleEnds 0x00000042#32 = true ∧ waitIdleEnds 0x00000100#32 = false ∧
    inItemEvent .eos = .inData [] ∧ sinkItemEvent (.err 0xBEEF#32) = .sinkErr 0xBEEF#32 := by decide

/-! ## Witnesses: states and operands that meet the hypotheses of each statement together

A clause with hypotheses of its own has its own conjunct, at a boundary of its range. -/

/-- A power-up state of the ROM form meets the invariants. -/
theorem powerUp_rom_inv (n : Nat) (k : Bool) : BlockInv (powerUp { bufSize := n, tableImpl := .rom, skipZeroLenWrite := k }) := by
  constructor <;> simp [powerUp, phaseAfterReset, tblrdyAfterReset, State.reset, busy, phaseCode]

theorem idle4_inv : BlockInv idle4 := powerUp_rom_inv 4 false
theorem idle4skip_inv : BlockInv idle4skip := powerUp_rom_inv 4 true
theorem idle1_inv : BlockInv idle1 := powerUp_rom_inv 1 false
theorem idle4_shape : Shape idle4 := ⟨by decide, by decide, fun _ => rfl⟩
theorem idle4skip_shape : Shape idle4skip := ⟨by decide, by decide, fun _ => rfl⟩
theorem idle1_shape : Shape idle1 := ⟨by decide, by decide, fun _ => rfl⟩

/-- Two tables for the last clause, the same linear one twice: entry `i` is `i`. -/
theorem test_witness_ReducerLaws :
    (∀ a b : Byte, tableAt (tableOf (BitVec.setWidth 32)) (a ^^^ b) =
      tableAt (tableOf (BitVec.setWidth 32)) a ^^^ tableAt (tableOf (BitVec.setWidth 32)) b) ∧
    (∀ k : Nat, k < 8 → tableAt (tableOf (BitVec.setWidth 32)) (BitVec.ofNat 8 (2 ^ k)) =
      tableAt (tableOf (BitVec.setWidth 32)) (BitVec.ofNat 8 (2 ^ k))) := ⟨by simp, fun _ _ => rfl⟩

theorem test_witness_TableHoldsTheListedValues :
    (∃ t, exec .tblGen State.reset = .next t) ∧ idle4.cfg.tableImpl = .rom ∧ (∃ t, exec .reset idle4 = .next t) :=
  ⟨⟨_, rfl⟩, rfl, ⟨_, rfl⟩⟩

theorem test_witness_ByteUpdateFormula : 0x78#8 = (0x12345678#32).extractLsb' 0 8 := by decide

theorem test_witness_TblGenFillsTheTableOnce :
    State.reset.phase = .tblgen ∧ idle4.phase ≠ .tblgen ∧
    (∃ t, exec .rdStatus State.reset = .next t ∧ t.phase = .tblgen) ∧
    (∃ t, exec .reset State.reset = .next t ∧ t.phase = .tblgen) ∧
    (∃ t, exec .reset idle4 = .next t) := ⟨rfl, by decide, ⟨_, rfl, rfl⟩, ⟨_, rfl, rfl⟩, ⟨_, rfl⟩⟩

theorem test_witness_TableIsNeverWrittenAgain :
    ∃ t, exec .compute idle4 = .next t ∧ Instr.compute ≠ .tblGen ∧ Instr.compute ≠ .reset ∧ idle4.tblrdy = true ∧
      idle4.phase ≠ .tblgen := ⟨_, rfl, by decide, by decide, rfl, by decide⟩

theorem test_witness_ExactlyTwoCommandWords : 0x00000021#32 ≠ 0x00000001#32 ∧ 0x00000021#32 ≠ 0x00000011#32 := by decide

theorem test_witness_ComputeStartsWithoutSink :
    idle4.phase = .idle ∧ State.reset.phase = .tblgen ∧ (reading false).phase ≠ .idle ∧
    (reading false).phase ≠ .tblgen := by decide
theorem test_witness_ComputeCopyStartsWithSink :
    idle4.phase = .idle ∧ State.reset.phase = .tblgen ∧ (writing []).phase ≠ .idle ∧ (writing []).phase ≠ .tblgen := by
  decide

/-- A chunk of `BUF_SIZE` bytes with the sink; the end of stream with and without it. -/
theorem test_witness_MuxSendsExactlyTheChunk :
    (reading true).cfg.wf = true ∧ (reading true).phase = .rdwait ∧ [1#8, 2, 3, 4].length ≤ (reading true).cfg.bufSize ∧
    ((reading true).copy = true ∧ ¬ ((reading true).cfg.skipZeroLenWrite = true ∧ [1#8, 2, 3, 4].length = 0)) ∧
    ¬ ((reading false).copy = true ∧ ¬ ((reading false).cfg.skipZeroLenWrite = true ∧ ([] : List Byte).length = 0)) ∧
    ¬ ((started true idle4skip).copy = true ∧
      ¬ ((started true idle4skip).cfg.skipZeroLenWrite = true ∧ ([] : List Byte).length = 0)) := by decide

theorem test_witness_RdRespStoresTheChunk :
    [1#8, 2, 3, 4].length ≤ ctx0.bufSize ∧ (reading false).cfg.wf = true ∧ (reading false).phase = .rdwait ∧
    [1#8, 2, 3, 4].length ≤ (reading false).cfg.bufSize ∧ 3 < [1#8, 2, 3, 4].length ∧ [1#8, 2, 3, 4].length ≤ 4 ∧
    idle4.phase ≠ .rdwait ∧ (reading false).cfg.bufSize < [1#8, 2, 3, 4, 5].length := by decide

/-- An empty write and one of a byte. -/
theorem test_witness_WrAckLeadsToProc :
    ((writing []).phase = .wrwait ∧ (writing []).buflen = 0#32) ∧
    ((writing [1#8]).phase = .wrwait ∧ (writing [1#8]).buflen ≠ 0#32) ∧ (reading true).phase ≠ .wrwait := by decide

theorem test_witness_ChunkCountsAndFolds :
    ctx3.buflen ≠ 0#32 ∧ (folding false [1#8]).phase = .proc ∧ (folding false [1#8]).buflen ≠ 0#32 ∧
    idle4.phase ≠ .proc ∧ (folding false []).buflen = 0#32 := by decide

theorem test_witness_FinishPublishesTheComplement :
    ctx0.buflen = 0#32 ∧ (folding false []).phase = .proc ∧ (folding false []).buflen = 0#32 ∧ idle4.phase ≠ .proc ∧
    (folding false [1#8]).buflen ≠ 0#32 := by decide

theorem test_witness_InputErrorAborts : (reading false).phase = .rdwait ∧ idle4.phase ≠ .rdwait := by decide

theorem test_witness_InputLengthViolationAborts :
    ctx0.bufSize < [1#8, 2, 3, 4, 5].length ∧ [1#8, 2, 3, 4, 5].length < 2 ^ 32 ∧ (reading false).phase = .rdwait ∧
    (reading false).cfg.bufSize < [1#8, 2, 3, 4, 5].length ∧ idle4.phase ≠ .rdwait ∧
    [1#8, 2, 3, 4].length ≤ (reading false).cfg.bufSize := by decide

theorem test_witness_SinkErrorAborts : (writing [1#8]).phase = .wrwait ∧ (reading true).phase ≠ .wrwait := by decide

theorem reading_tracks (copy : Bool) : Tracks [] [] (reading copy) := ⟨rfl, rfl, rfl⟩
theorem folding_tracks : Tracks [] [[]] (folding false []) := ⟨rfl, [], rfl, rfl, rfl⟩
theorem writing_tracks : Tracks [] [[1]] (writing [1]) := ⟨rfl, [], rfl, rfl, rfl⟩

theorem test_witness_CountAfterAnIoError :
    (Tracks [] [] (reading false) ∧ ∃ t, exec (.rdErr 5#32) (reading false) = .next t) ∧
    (Tracks [] [] (reading false) ∧ ∃ t, exec (.rdLenerr [1, 2, 3, 4, 5]) (reading false) = .next t) ∧
    (Tracks [] [[1]] (writing [1]) ∧ ∃ t, exec (.wrErr 5#32) (writing [1]) = .next t) :=
  ⟨⟨reading_tracks _, _, rfl⟩, ⟨reading_tracks _, _, rfl⟩, ⟨writing_tracks, _, rfl⟩⟩

theorem test_witness_TableReadReturnsTheEntry :
    idle4.tblrdy = true ∧ State.reset.tblrdy = false ∧ (0x400#12).toNat = 0x400 + 4 * (0x00#8).toNat ∧
    (0x7FC#12).toNat = 0x400 + 4 * (0xFF#8).toNat := by decide

theorem test_witness_IllegalAccessesAreRejected :
    (0x00000000#32 ≠ 0x00000001#32 ∧ 0x00000000#32 ≠ 0x00000011#32) ∧
    HostAccess.illegal (.read 0x018#12) = true ∧ HostAccess.illegal (.read 0x3FC#12) = true ∧
    HostAccess.illegal (.read 0x000#12) = true ∧ HostAccess.illegal (.read 0x800#12) = true ∧
    HostAccess.illegal (.read 0xFFF#12) = true ∧ HostAccess.illegal (.write 0x001#12 1#32) = true ∧
    HostAccess.illegal (.write 0x014#12 1#32) = true ∧ HostAccess.illegal (.write 0x7FC#12 1#32) = true := by decide

theorem test_witness_ProtocolErrorsAreSticky :
    (∃ t, exec (.cmdIllegal 0#32) { idle4 with perr := true, pcause := .cmdBusy } = .next t) ∧
    Instr.cmdIllegal 0#32 ≠ .reset ∧
    (∃ t, exec .rdStatus idle4 = .next t ∧ t.perr = false) ∧ idle4.perr = false ∧ Instr.rdStatus ≠ .reset ∧
    (∃ t, exec .reset { idle4 with perr := true } = .next t) :=
  ⟨⟨_, rfl⟩, by decide, ⟨_, rfl, rfl⟩, rfl, by decide, ⟨_, rfl⟩⟩

theorem test_witness_ResultWrittenOnlyByFinish :
    (∃ t, exec .compute { idle4 with result := 7#32 } = .next t) ∧ (∃ t, exec .finish (folding false []) = .next t) ∧
    (∃ t, exec .reset idle4 = .next t) := ⟨⟨_, rfl⟩, ⟨_, rfl⟩, ⟨_, rfl⟩⟩

theorem test_witness_CountCountsChunks :
    (∃ t, exec .finish (folding false []) = .next t) ∧ (∃ t, exec .compute idle4 = .next t) ∧
    (∃ t, exec .computeCopy (reading false) = .next t) ∧ (∃ t, exec .chunk (folding false [1]) = .next t) :=
  ⟨⟨_, rfl⟩, ⟨_, rfl⟩, ⟨_, rfl⟩, ⟨_, rfl⟩⟩

theorem test_witness_ElementsHaveOnlyTheirWriters :
    ((∃ t, exec .rdStatus idle4 = .next t) ∧ Instr.rdStatus ≠ .reset) ∧
    ((∃ t, exec .chunk (folding true [1]) = .next t) ∧ Instr.chunk ≠ .reset) ∧
    ((∃ t, exec .compute (reading true) = .next t) ∧ (reading true).phase ≠ .idle) ∧
    ((∃ t, exec .compute idle4 = .next t) ∧ idle4.phase = .idle) ∧
    ((∃ t, exec (.rdTable 0xFF#8) idle4 = .next t) ∧ idle4.tblrdy = true) :=
  ⟨⟨⟨_, rfl⟩, by decide⟩, ⟨⟨_, rfl⟩, by decide⟩, ⟨⟨_, rfl⟩, by decide⟩, ⟨⟨_, rfl⟩, rfl⟩, ⟨⟨_, rfl⟩, rfl⟩⟩

theorem test_witness_IoErrorsEndABusyComputation :
    (reading false).ioerr = false ∧ (∃ t, exec (.rdErr 5#32) (reading false) = .next t ∧ t.ioerr = true) ∧
    (writing [1]).ioerr = false ∧ ∃ t, exec (.wrErr 5#32) (writing [1]) = .next t ∧ t.ioerr = true :=
  ⟨rfl, ⟨_, rfl, rfl⟩, rfl, _, rfl, rfl⟩

theorem test_witness_PhasesFollowTheGraph :
    (∃ t, exec (.rdResp [1]) (reading true) = .next t) ∧ Instr.rdResp [1] ≠ .reset := ⟨⟨_, rfl⟩, by decide⟩

theorem test_witness_ResultsHoldWhileNotBusy :
    (∃ t, exec (.busIllegal (.read 0x018#12)) afterP2 = .next t) ∧ busy afterP2 = false ∧
    Instr.busIllegal (.read 0x018#12) ≠ .compute ∧ Instr.busIllegal (.read 0x018#12) ≠ .computeCopy ∧
    Instr.busIllegal (.read 0x018#12) ≠ .reset := ⟨⟨_, rfl⟩, rfl, by decide, by decide, by decide⟩

theorem test_witness_ResetRestoresEveryElement :
    State.reset.cfg.tableImpl = .generate ∧ idle4.cfg.tableImpl = .rom := by decide
theorem test_witness_PowerUpHasTheResetValues :
    Config.default.tableImpl = .generate ∧ idle4.cfg.tableImpl = .rom := by decide

/-- The ends of the range of `BUF_SIZE`. -/
theorem test_witness_PowerUpMeetsTheInvariants :
    Config.wf { bufSize := 1, tableImpl := .rom, skipZeroLenWrite := true } = true ∧
    Config.wf { bufSize := 2 ^ 32 - 1, tableImpl := .generate, skipZeroLenWrite := false } = true := by decide

/-- `idle4` with the command on its agenda. -/
def starting : State := { idle4 with agenda := [.host (.write 0x000#12 0x00000011#32)] }

theorem starting_inv : BlockInv starting := by obtain ⟨a, b, c, d, e, f, g⟩ := idle4_inv; exact ⟨a, b, c, d, e, f, g⟩
theorem starting_shape : Shape starting := ⟨idle4_shape.1, idle4_shape.2, idle4_shape.3⟩

theorem test_witness_StepKeepsTheInvariants : BlockInv starting ∧ ∃ t, step starting = .next t :=
  ⟨starting_inv, _, rfl⟩

theorem test_witness_StepKeepsShapeAndSinkLog :
    Shape starting ∧ SinkLogAgrees starting ∧ (∃ t, step starting = .next t) ∧ (writing [1]).phase = .wrwait ∧
    SinkLogAgrees (writing [1]) := ⟨starting_shape, nofun, ⟨_, rfl⟩, rfl, fun _ => ⟨[], rfl⟩⟩

theorem test_witness_DecodeInvertsEncode :
    wellFormed ctx0 (.rdLenerr [1, 2, 3, 4, 5]) = true ∧ (Instr.rdLenerr [1, 2, 3, 4, 5]).encoded = true ∧
    wellFormed ctx0 (.rdTable 0xFF#8) = true ∧ (Instr.rdTable 0xFF#8).encoded = true := by decide

theorem test_witness_EncodeInvertsDecode :
    decode ctx0 (.bus (.read 0x7FC#12)) = .instr (.rdTable 0xFF#8) ∧ Instr.rdTable 0xFF#8 ≠ .reset ∧
    decode ctx0 (.fsm 0b101111#6 .empty) = .instr .reset := by decide

theorem test_witness_EventsSelectTheirSteps :
    ctx3.buflen ≠ 0#32 ∧ ctx0.buflen = 0#32 ∧ [1#8, 2, 3, 4].length ≤ ctx0.bufSize ∧
    ctx0.bufSize < [1#8, 2, 3, 4, 5].length ∧ [1#8, 2, 3, 4, 5].length < 2 ^ 32 := by decide

/-- An event that decodes (from the agenda, from the recurring events), the core by itself, and an event that does not
decode (from either). -/
theorem test_witness_StepRunsTheDecodedInstruction :
    (starting.agenda = .host (.write 0x000#12 0x00000011#32) :: [] ∧
      decode { bufSize := starting.cfg.bufSize, buflen := starting.buflen }
        (transactionOf (.host (.write 0x000#12 0x00000011#32)) starting.phase) = .instr .computeCopy) ∧
    (endless.recurring = .inData [6] :: [.sinkAck, .internal] ∧
      decode { bufSize := endless.cfg.bufSize, buflen := endless.buflen } (transactionOf (.inData [6]) endless.phase) =
        .instr (.rdResp [6])) ∧
    (State.reset.agenda = [] ∧ State.reset.recurring = [] ∧ decode { bufSize := State.reset.cfg.bufSize, buflen := State.reset.buflen }
        (transactionOf .internal State.reset.phase) = .instr .tblGen) ∧
    (({ idle4 with agenda := [.sinkAck] } : State).agenda = .sinkAck :: [] ∧
      (({ idle4 with recurring := [.sinkAck] } : State).agenda = [] ∧
        ({ idle4 with recurring := [.sinkAck] } : State).recurring = .sinkAck :: []) ∧
      decode { bufSize := idle4.cfg.bufSize, buflen := idle4.buflen } (transactionOf .sinkAck idle4.phase) =
        .reject (.noStep 0b011000#6)) := by decide

theorem endless_inv : BlockInv endless := by
  constructor <;> simp [endless, reading, started, idle4, powerUp, State.reset, tblrdyAfterReset, phaseCode]
theorem endless_shape : Shape endless := ⟨by decide, by decide, fun _ => rfl⟩

/-- The ways a computation ends; the phases with nothing to come; an endless input. -/
theorem test_witness_StuckExactlyWithoutACoreStep :
    ((∃ t, exec .finish (folding false []) = .next t ∧ busy t = false) ∧ busy (folding false []) = true ∧
      (∃ t, exec (.wrErr 5#32) (writing [1]) = .next t ∧ busy t = false) ∧ busy (writing [1]) = true) ∧
    (idle4.agenda = [] ∧ idle4.recurring = [] ∧ idle4.phase = .idle ∧
      (reading true).agenda = [] ∧ (reading true).recurring = [] ∧ (reading true).phase = .rdwait ∧
      (writing [1]).agenda = [] ∧ (writing [1]).recurring = [] ∧ (writing [1]).phase = .wrwait ∧
      (folding true [1]).agenda = [] ∧ (folding true [1]).recurring = [] ∧ (folding true [1]).phase = .proc ∧
      State.reset.agenda = [] ∧ State.reset.recurring = [] ∧ State.reset.phase = .tblgen) ∧
    (BlockInv endless ∧ Shape endless ∧ endless.phase = .rdwait ∧ ChunksFit endless.cfg [[1, 2, 3, 4], [5]] ∧
      ChunksFit endless.cfg [[6]] ∧ [[6#8]] ≠ [] ∧
      endless.agenda = streamEvents endless.copy endless.cfg.skipZeroLenWrite [[1, 2, 3, 4], [5]] ∧
      endless.recurring = streamEvents endless.copy endless.cfg.skipZeroLenWrite [[6]]) :=
  ⟨⟨⟨_, rfl, rfl⟩, by decide, ⟨_, rfl, rfl⟩, by decide⟩, by decide,
    ⟨endless_inv, endless_shape, rfl, by unfold ChunksFit; decide, by unfold ChunksFit; decide, by decide, rfl, rfl⟩⟩

theorem test_witness_NoAnswerAndNoRequestAfterReset :
    (∃ t, exec .reset (writing [1]) = .next t) ∧
    (busy idle4 = false ∧ nextEvent { idle4 with agenda := [.inData [1]] } = .inData [1] ∧
      nextEvent { idle4 with recurring := [.sinkAck] } = .sinkAck) ∧
    (∃ t, exec .rdStatus idle4 = .next t) ∧ Instr.rdStatus ≠ .compute ∧ Instr.rdStatus ≠ .computeCopy :=
  ⟨⟨_, rfl⟩, ⟨rfl, rfl, rfl⟩, ⟨_, rfl⟩, by decide, by decide⟩

theorem test_witness_TableWordsRunNext :
    decodeTableWord 8 0b001010 = some (.rdResp []) ∧ decodeTableWord 32 0x00000001 = some .compute ∧
    decodeTableWord 16 0x7FC = some (.rdTable 0xFF#8) := by decide

/-- `reading`, `writing` and `folding` with one event of their agent to come. -/
theorem test_witness_ComputationTracksItsInput :
    (idle4.phase = .idle ∧ (∃ t, exec .compute idle4 = .next t) ∧ ∃ t, exec .computeCopy idle4 = .next t) ∧
    (BlockInv { reading true with agenda := [.inData [1, 2, 3, 4]] } ∧
      Shape { reading true with agenda := [.inData [1, 2, 3, 4]] } ∧
      Tracks [] [] { reading true with agenda := [.inData [1, 2, 3, 4]] } ∧
      ∃ t, step { reading true with agenda := [.inData [1, 2, 3, 4]] } = .next t) ∧
    (BlockInv (folding false []) ∧ Shape (folding false []) ∧ Tracks [] [[]] (folding false []) ∧
      ∃ t, step (folding false []) = .next t) := by
  refine ⟨⟨rfl, ⟨_, rfl⟩, ⟨_, rfl⟩⟩, ⟨?_, ⟨by decide, by decide, fun _ => rfl⟩, reading_tracks true, _, rfl⟩,
    ⟨?_, ⟨by decide, by decide, fun _ => rfl⟩, folding_tracks, _, rfl⟩⟩
  · constructor <;> simp [reading, started, idle4, powerUp, State.reset, tblrdyAfterReset, phaseCode]
  · constructor <;> simp [folding, storeChunk, logInput, answerLength, reading, started, idle4, powerUp, State.reset,
      tblrdyAfterReset, phaseCode]

/-- Two chunks, the first of `BUF_SIZE` bytes. -/
def chunks : List (List Byte) := [[0x31, 0x32, 0x33, 0x34], [0x35]]

/-- A schedule over `chunks` with host reads among the events. -/
def sched (copy skip : Bool) : List Event :=
  .host (.read 0x004#12) :: ((bodyEvents copy skip chunks).dropLast ++ [.host (.write 0x000#12 0x00000001#32), .internal])

theorem chunks_fit (c : Config) (h : c.bufSize = 4) : ChunksFit c chunks := by
  intro b hb
  rw [h]
  revert b
  decide

theorem test_witness_SuccessfulComputationResult :
    BlockInv { idle4 with agenda := startEvent false :: (sched false false ++ [.reset]) } ∧
    Shape { idle4 with agenda := startEvent false :: (sched false false ++ [.reset]) } ∧
    idle4.phase = .idle ∧ ChunksFit idle4.cfg chunks ∧ IsSchedule false idle4.cfg.skipZeroLenWrite chunks (sched false false) := by
  obtain ⟨a, b, c, d, e, f, g⟩ := idle4_inv
  exact ⟨⟨a, b, c, d, e, f, g⟩, ⟨idle4_shape.1, idle4_shape.2, idle4_shape.3⟩, rfl, chunks_fit _ rfl, by decide, by decide⟩

/-- With SKIP_ZERO_LEN_WRITE and without. -/
theorem test_witness_CopyFidelity :
    (BlockInv { idle4 with agenda := startEvent true :: (sched true false ++ []) } ∧
      Shape { idle4 with agenda := startEvent true :: (sched true false ++ []) } ∧
      idle4.phase = .idle ∧ ChunksFit idle4.cfg chunks ∧
      IsSchedule true idle4.cfg.skipZeroLenWrite chunks (sched true false)) ∧
    BlockInv { idle4skip with agenda := startEvent true :: (sched true true ++ []) } ∧
    Shape { idle4skip with agenda := startEvent true :: (sched true true ++ []) } ∧
    idle4skip.phase = .idle ∧ ChunksFit idle4skip.cfg chunks ∧
    IsSchedule true idle4skip.cfg.skipZeroLenWrite chunks (sched true true) := by
  refine ⟨?_, ?_⟩
  · obtain ⟨a, b, c, d, e, f, g⟩ := idle4_inv
    exact ⟨⟨a, b, c, d, e, f, g⟩, ⟨idle4_shape.1, idle4_shape.2, idle4_shape.3⟩, rfl, chunks_fit _ rfl, by decide,
      by decide⟩
  obtain ⟨a, b, c, d, e, f, g⟩ := idle4skip_inv
  exact ⟨⟨a, b, c, d, e, f, g⟩, ⟨idle4skip_shape.1, idle4skip_shape.2, idle4skip_shape.3⟩, rfl, chunks_fit _ rfl, by decide,
    by decide⟩

theorem test_witness_EmptyStream :
    BlockInv { idle4 with agenda := startEvent true :: (bodyEvents true false [] ++ []) } ∧
    Shape { idle4 with agenda := startEvent true :: (bodyEvents true false [] ++ []) } ∧ idle4.phase = .idle ∧
    IsSchedule true idle4.cfg.skipZeroLenWrite [] (bodyEvents true false []) ∧ idle4.cfg.skipZeroLenWrite = false := by
  obtain ⟨a, b, c, d, e, f, g⟩ := idle4_inv
  exact ⟨⟨a, b, c, d, e, f, g⟩, ⟨idle4_shape.1, idle4_shape.2, idle4_shape.3⟩, rfl, ⟨by decide, by decide⟩, rfl⟩

/-- The same two bytes in one chunk with the sink, and in two with `BUF_SIZE = 1` and without. -/
theorem test_witness_ResultDependsOnTheBytesOnly :
    (BlockInv { idle4 with agenda := startEvent true :: (bodyEvents true false [[1, 2]] ++ []) } ∧
      Shape { idle4 with agenda := startEvent true :: (bodyEvents true false [[1, 2]] ++ []) } ∧ idle4.phase = .idle ∧
      ChunksFit idle4.cfg [[1, 2]] ∧ IsSchedule true idle4.cfg.skipZeroLenWrite [[1, 2]] (bodyEvents true false [[1, 2]])) ∧
    (BlockInv { idle1 with agenda := startEvent false :: (bodyEvents false false [[1], [2]] ++ []) } ∧
      Shape { idle1 with agenda := startEvent false :: (bodyEvents false false [[1], [2]] ++ []) } ∧ idle1.phase = .idle ∧
      ChunksFit idle1.cfg [[1], [2]] ∧
      IsSchedule false idle1.cfg.skipZeroLenWrite [[1], [2]] (bodyEvents false false [[1], [2]])) ∧
    [[1#8, 2]].flatten = [[1#8], [2]].flatten := by
  obtain ⟨a, b, c, d, e, f, g⟩ := idle4_inv
  obtain ⟨a', b', c', d', e', f', g'⟩ := idle1_inv
  exact ⟨⟨⟨a, b, c, d, e, f, g⟩, ⟨idle4_shape.1, idle4_shape.2, idle4_shape.3⟩, rfl, by unfold ChunksFit; decide, by decide,
      by decide⟩,
    ⟨⟨a', b', c', d', e', f', g'⟩, ⟨idle1_shape.1, idle1_shape.2, idle1_shape.3⟩, rfl, by unfold ChunksFit; decide,
      by decide, by decide⟩, rfl⟩

theorem test_witness_ComputeIsComputeCopyWithoutSink :
    BlockInv idle4 ∧ Shape idle4 ∧ idle4.phase = .idle ∧ ChunksFit idle4.cfg chunks ∧
    IsSchedule false idle4.cfg.skipZeroLenWrite chunks (sched false false) ∧
    IsSchedule true idle4.cfg.skipZeroLenWrite chunks (sched true false) :=
  ⟨idle4_inv, idle4_shape, rfl, chunks_fit _ rfl, ⟨by decide, by decide⟩, ⟨by decide, by decide⟩⟩

theorem test_witness_ByteLanesAreLittleEndian : 3 < 4 ∧ 7 < 8 := by decide

/-- A log with one write to be answered; a step that touches neither log. -/
theorem test_witness_LogsRecordThePortTransactions :
    (∃ t, exec (.rdResp [1]) (reading true) = .next t) ∧ (∃ t, exec (.rdLenerr [1, 2, 3, 4, 5]) (reading true) = .next t) ∧
    (∃ t, exec (.rdErr 5#32) (reading true) = .next t) ∧
    (writing [1]).sinklog = [] ++ [{ n := 1#32, bytes := [1], answer := none }] ∧
    (∃ t, exec .wrAck (writing [1]) = .next t) ∧ (∃ t, exec (.wrErr 5#32) (writing [1]) = .next t) ∧
    (∃ t, exec .reset (writing [1]) = .next t) :=
  ⟨⟨_, rfl⟩, ⟨_, rfl⟩, ⟨_, rfl⟩, rfl, ⟨_, rfl⟩, ⟨_, rfl⟩, ⟨_, rfl⟩⟩

end Sys2Proof.Tests
end

section
/-!
PROOFS. 10_state.md R24, R26, R29 and R39: what each update does to the invariants, and which instruction writes
`TABLE`, `RESULT` and `COUNT`.
-/

namespace Sys2Proof.Machine

/-! ## The mux and a command word, field by field -/

/-- The mux writes `PHASE` and `SINKLOG` only (41_stream_accumulator.md R125). -/
theorem routeChunk_frame (n : Nat) (s : State) :
    routeChunk n s = { s with phase := (routeChunk n s).phase, sinklog := (routeChunk n s).sinklog } := by
  rcases routeChunk_cases n s with ⟨-, e⟩ | ⟨-, e⟩
  · rw [e, issueSinkWrite]
  · rw [e]

@[simp] theorem routeChunk_table (n : Nat) (s : State) : (routeChunk n s).table = s.table := by rw [routeChunk_frame]
@[simp] theorem routeChunk_tblrdy (n : Nat) (s : State) : (routeChunk n s).tblrdy = s.tblrdy := by
  rw [routeChunk_frame]
@[simp] theorem routeChunk_result (n : Nat) (s : State) : (routeChunk n s).result = s.result := by
  rw [routeChunk_frame]
@[simp] theorem routeChunk_count (n : Nat) (s : State) : (routeChunk n s).count = s.count := by rw [routeChunk_frame]

/-- The mux leads to `WRWAIT` or `PROC` (R125, R126). -/
@[simp] theorem routeChunk_phase_ne_tblgen (n : Nat) (s : State) : (routeChunk n s).phase ≠ .tblgen := by
  rcases routeChunk_cases n s with ⟨-, e⟩ | ⟨-, e⟩ <;> simp [e]

/-- A write is enabled only with `COPY = 1` (R125). -/
theorem copy_of_sinkWriteEnable {s : State} {n : Nat} (h : sinkWriteEnable s n = true) : s.copy = true := by
  simp only [sinkWriteEnable, Bool.and_eq_true] at h
  exact h.1

/-- The length word of a chunk is at most its length (and equal below 2^32). -/
theorem answerLength_toNat_le (b : List Byte) : (answerLength b).toNat ≤ b.length := Nat.mod_le ..

/-- A command word clears `COUNT` in `IDLE` and leaves it in every other phase (R123, R26). -/
theorem startCommand_count (c : Bool) (s : State) :
    (startCommand c s).count = if s.phase = .idle then 0#64 else s.count := by
  cases h : s.phase <;> simp [startCommand, h]

/-! ## What each update does to the invariants (10_state.md R39) -/

section
variable {s : State}

/-- While the block computes, the table is ready and neither flag is set. -/
theorem BlockInv.of_busy (h : BlockInv s) (hb : busy s = true) :
    s.tblrdy = true ∧ s.done = false ∧ s.ioerr = false := by
  have hp : s.phase ≠ .tblgen := by
    intro hp
    simp [busy, hp] at hb
  exact ⟨by simpa [← h.tblrdyIff] using hp, h.busyNoFlags hb⟩

/-- The invariants of a state in `IDLE` are (a), (b) and (f). -/
theorem blockInv_of_idle (hp : s.phase = .idle) (hr : s.tblrdy = true) (hd : s.done = true → s.ioerr = false)
    (hf : s.perr = false → s.pcause = .noError) : BlockInv s where
  tblrdyIff := by simp [hp, hr]
  doneNoIoerr := hd
  busyNoFlags := by simp [busy, hp]
  wrwaitCopy := by simp [hp]
  buflenFits := by simp [hp]
  perrCause := hf
  phaseLegal := phaseCode_lt _

/-- The fields of the model's own and the logs are in no invariant. -/
theorem BlockInv.frame (h : BlockInv s) (rdata dpOut : Word) (agenda : List Event) (inlog : List InAnswer)
    (sinklog : List SinkEntry) :
    BlockInv { s with rdata := rdata, dpOut := dpOut, agenda := agenda, inlog := inlog, sinklog := sinklog } :=
  { h with }

/-- A protocol error may record any cause: (f) speaks of `PERR = 0` only. -/
theorem BlockInv.protocolError (h : BlockInv s) (v : Word) (c : PCause) :
    BlockInv { s with rdata := v, perr := true, pcause := c } :=
  { h with perrCause := fun hp => nomatch hp }

/-- START clears both flags, so the computation begins with neither (41_stream_accumulator.md R123). -/
theorem BlockInv.start (h : BlockInv s) (hp : s.phase = .idle) (c : Bool) : BlockInv (started c s) where
  tblrdyIff := by simp [h.tblrdyIff, hp]
  doneNoIoerr := by simp
  busyNoFlags := by simp
  wrwaitCopy := by simp
  buflenFits := by simp
  perrCause := h.perrCause
  phaseLegal := phaseCode_lt _

/-- An I/O error ends a computation, in which `DONE` is 0 (60_exceptions.md R182). -/
theorem BlockInv.ioError (h : BlockInv s) (hb : busy s = true) (src : ErrSrc) (info : Word) :
    BlockInv (raiseIOError src info s) := by
  obtain ⟨hrdy, hdone, -⟩ := h.of_busy hb
  exact blockInv_of_idle rfl hrdy (by simp [hdone]) h.perrCause

/-- A change of phase within a computation keeps the invariants where it keeps (d) and (e). -/
theorem BlockInv.computing (h : BlockInv s) (hb : busy s = true) (count : Count) (acc : Word) {p : Phase}
    (hp : p ≠ .tblgen) (hd : p = .wrwait → s.copy = true)
    (he : p = .wrwait ∨ p = .proc → s.buflen.toNat ≤ s.cfg.bufSize) :
    BlockInv { s with count := count, acc := acc, phase := p } where
  tblrdyIff := by simp [h.of_busy hb, hp]
  doneNoIoerr := h.doneNoIoerr
  busyNoFlags := fun _ => h.busyNoFlags hb
  wrwaitCopy := hd
  buflenFits := he
  perrCause := h.perrCause
  phaseLegal := phaseCode_lt _

/-- Storing a chunk in `RDWAIT`: no invariant speaks of `BUFLEN` there (R126). -/
theorem BlockInv.store (h : BlockInv s) (hp : s.phase = .rdwait) (b : List Byte) : BlockInv (storeChunk b s) :=
  { h with buflenFits := by simp [hp] }

/-- The mux enters `WRWAIT` only with `COPY = 1`, so a fitting chunk is all it needs (R125). -/
theorem BlockInv.route (h : BlockInv s) (hb : busy s = true) (hn : s.buflen.toNat ≤ s.cfg.bufSize) (n : Nat) :
    BlockInv (routeChunk n s) := by
  rcases routeChunk_cases n s with ⟨he, e⟩ | ⟨-, e⟩ <;> rw [e]
  · have hcopy : s.copy = true := copy_of_sinkWriteEnable he
    exact (h.computing hb s.count s.acc (p := .wrwait) (by simp) (fun _ => hcopy) (fun _ => hn)).frame ..
  · exact h.computing hb s.count s.acc (by simp) (by simp) (fun _ => hn)

/-- TBL_GEN sets `TBLRDY` as it leaves `TBLGEN` (40_table_generator.md R103). -/
theorem BlockInv.tableGenerated (h : BlockInv s) (table : Table) :
    BlockInv { s with table := table, tblrdy := true, phase := .idle } :=
  blockInv_of_idle rfl rfl h.doneNoIoerr h.perrCause

/-- FINISH sets `DONE` at the end of a computation, in which `IOERR` is 0 (R129). -/
theorem BlockInv.finished (h : BlockInv s) (hb : busy s = true) (result : Word) :
    BlockInv { s with result := result, done := true, phase := .idle } := by
  obtain ⟨hrdy, -, hioerr⟩ := h.of_busy hb
  exact blockInv_of_idle rfl hrdy (fun _ => hioerr) h.perrCause

end

/-- The reset values meet the invariants, whatever the state before (70_reset_and_hazards.md R210). -/
theorem blockInv_resetState (s : State) : BlockInv (resetState s) where
  tblrdyIff := by cases h : s.cfg.tableImpl <;> simp [h, phaseAfterReset, tblrdyAfterReset]
  doneNoIoerr := by simp
  busyNoFlags := by simp
  wrwaitCopy := by cases h : s.cfg.tableImpl <;> simp [h, phaseAfterReset]
  buflenFits := by cases h : s.cfg.tableImpl <;> simp [h, phaseAfterReset]
  perrCause := by simp
  phaseLegal := phaseCode_lt _

/-- Every instruction that completes keeps the invariants. -/
theorem exec_keeps_blockInv {i : Instr} {s t : State} (h : BlockInv s) (he : exec i s = .next t) : BlockInv t := by
  have busy_of {p : Phase} (hp : s.phase = p) (hc : p = .rdwait ∨ p = .wrwait ∨ p = .proc) : busy s = true :=
    (busy_eq_true_iff s).2 (hp ▸ hc)
  rcases exec_cases he with ⟨v, rfl⟩ | ⟨v, c, rfl⟩ | ⟨v, rfl⟩ | ⟨-, hp, c, rfl⟩ | ⟨-, -, rfl⟩ | ⟨b, -, hp, hn, rfl⟩ |
    ⟨b, -, hp, rfl⟩ | ⟨e, -, hp, rfl⟩ | ⟨-, hp, rfl⟩ | ⟨e, -, hp, rfl⟩ | ⟨-, hp, -, rfl⟩ | ⟨-, hp, -, rfl⟩ | ⟨-, rfl⟩
  · exact h.frame ..
  · exact h.protocolError v _
  · exact h.frame ..
  · exact h.start hp c
  · exact h.tableGenerated _
  · have hlog : BlockInv (logInput (.data b) s) := h.frame ..
    exact (hlog.store hp b).route (busy_of hp (by simp)) ((answerLength_toNat_le b).trans hn) _
  · exact BlockInv.ioError (s := logInput _ s) (h.frame ..) (busy_of hp (by simp)) ..
  · exact BlockInv.ioError (s := logInput _ s) (h.frame ..) (busy_of hp (by simp)) ..
  · have hfit : s.buflen.toNat ≤ s.cfg.bufSize := h.buflenFits (.inl hp)
    exact (h.computing (busy_of hp (by simp)) s.count s.acc (p := .proc) (by simp) (by simp) (fun _ => hfit)).frame ..
  · exact BlockInv.ioError (s := logSinkAnswer _ s) (h.frame ..) (busy_of hp (by simp)) ..
  · exact h.computing (busy_of hp (by simp)) _ _ (by simp) (by simp) (by simp)
  · exact h.finished (busy_of hp (by simp)) _
  · exact blockInv_resetState s

/-- Settles O41: a step runs one instruction in the state with the event taken off, and every instruction keeps the
invariants. -/
theorem stepKeepsTheInvariants : Obligations.StepKeepsTheInvariants := by
  intro s t hs hstep
  obtain ⟨i, -, he⟩ := step_next s t hstep
  have hev : BlockInv s.takeEvent := hs.frame ..
  exact exec_keeps_blockInv hev he

/-! ## Who writes TABLE, RESULT and COUNT (10_state.md R24, R26, R29) -/

section
variable {i : Instr} {s t : State}

/-- Only TBL_GEN and RESET write `TABLE` and `TBLRDY`, only FINISH and RESET write `RESULT`, and only CHUNK, a command
and RESET write `COUNT` (10_state.md R21, column "written by"). -/
theorem exec_writes_only (h : exec i s = .next t) (hr : i ≠ .reset) :
    (i = .tblGen ∨ t.table = s.table ∧ t.tblrdy = s.tblrdy) ∧
    (i = .finish ∨ t.result = s.result) ∧
    (i = .chunk ∨ i = .compute ∨ i = .computeCopy ∨ t.count = s.count) := by
  rcases exec_cases h with ⟨_, rfl⟩ | ⟨_, _, rfl⟩ | ⟨_, rfl⟩ | ⟨rfl | rfl, -, _, rfl⟩ | ⟨rfl, -, rfl⟩ |
    ⟨_, rfl, -, -, rfl⟩ | ⟨_, rfl, -, rfl⟩ | ⟨_, rfl, -, rfl⟩ | ⟨rfl, -, rfl⟩ | ⟨_, rfl, -, rfl⟩ |
    ⟨rfl, -, -, rfl⟩ | ⟨rfl, -, -, rfl⟩ | ⟨rfl, -⟩
  all_goals simp at hr ⊢

/-- Only RESET enters `TBLGEN` (40_table_generator.md R103). -/
theorem exec_phase_ne_tblgen (h : exec i s = .next t) (hr : i ≠ .reset) (hp : s.phase ≠ .tblgen) :
    t.phase ≠ .tblgen := by
  rcases exec_cases h with ⟨_, rfl⟩ | ⟨_, _, rfl⟩ | ⟨_, rfl⟩ | ⟨-, -, _, rfl⟩ | ⟨-, -, rfl⟩ | ⟨b, -, -, -, rfl⟩ |
    ⟨_, -, -, rfl⟩ | ⟨_, -, -, rfl⟩ | ⟨-, -, rfl⟩ | ⟨_, -, -, rfl⟩ | ⟨-, -, -, rfl⟩ | ⟨-, -, -, rfl⟩ | ⟨rfl, -⟩
  all_goals simp [hp] at hr ⊢

end

/-- Settles O12: `exec_writes_only` for TABLE; with the table ready and outside TBLGEN, TBL_GEN has no step. -/
theorem tableIsNeverWrittenAgain : Obligations.TableIsNeverWrittenAgain := by
  constructor
  · intro i s t h hg hr
    obtain ⟨htable, -, -⟩ := exec_writes_only h hr
    exact (htable.resolve_left hg).1
  · intro i s t h hr hrdy hp
    have hg : i ≠ .tblGen := by
      rintro rfl
      obtain ⟨hphase, -⟩ := (exec_tblGen_next s t).1 h
      exact hp hphase
    obtain ⟨hwriter, -, -⟩ := exec_writes_only h hr
    obtain ⟨htable, htblrdy⟩ := hwriter.resolve_left hg
    exact ⟨htblrdy.trans hrdy, exec_phase_ne_tblgen h hr hp, htable⟩

/-- Settles O32: `exec_writes_only` for RESULT, and what FINISH and RESET write. -/
theorem resultWrittenOnlyByFinish : Obligations.ResultWrittenOnlyByFinish := by
  refine ⟨fun i s t h hf hr => ?_, fun s t h => ?_, fun s t h => ?_⟩
  · obtain ⟨-, hresult, -⟩ := exec_writes_only h hr
    exact hresult.resolve_left hf
  · obtain ⟨-, rfl⟩ := (exec_finish_next s t).1 h
    rfl
  · obtain rfl := (exec_reset_next s t).1 h
    rfl

/-- Settles O33: `exec_writes_only` for COUNT, the command's effect on it by phase, and CHUNK's 64-bit sum. -/
theorem countCountsChunks : Obligations.CountCountsChunks := by
  refine ⟨fun i s t h hk hc hcc hr => ?_, fun i s t hi h => ?_, fun s t h => ?_⟩
  · obtain ⟨-, -, hcount⟩ := exec_writes_only h hr
    simpa [hk, hc, hcc] using hcount
  · rcases hi with rfl | rfl
    · rw [← (exec_compute_next s t).1 h, startCommand_count]
    · rw [← (exec_computeCopy_next s t).1 h, startCommand_count]
  · obtain ⟨-, rfl⟩ := (exec_chunk_next s t).1 h
    simp [BitVec.toNat_add]

end Sys2Proof.Machine
end

section
/-!
PROOFS. 30_encoding.md R82, R86 and R87: the two legal command words, the outcome of every host access, and the step
every event selects.
-/

namespace Sys2Proof.Machine

/-! ## What a host access decodes to, by its cause (30_encoding.md R82, R86) -/

/-- A command word is illegal where `OP` is not 1 or a reserved bit is set (R82). -/
theorem commandLegal_eq_false_iff_fields (w : Word) :
    commandLegal w = false ↔ w.extractLsb' 0 4 ≠ 0x1#4 ∨ w.extractLsb' 5 27 ≠ 0#27 := by
  simp [commandLegal, imp_iff_not_or]

/-- A write to `CMD` has none of the causes of R86 cases 1 to 4. -/
@[simp] theorem busCause_write_cmd (w : Word) : busCause (.write 0x000#12 w) = none := rfl

/-- A write to `CMD` is decoded by its word alone (R82). -/
theorem decodeHost_write_cmd (w : Word) : decodeHost (.write 0x000#12 w) =
    if commandLegal w then (if commandC w then .computeCopy else .compute) else .cmdIllegal w := by
  simp [decodeHost]

/-- An access with one of the causes of R86 cases 1 to 4 is a BUS_ILLEGAL. -/
theorem decodeHost_of_busCause_some {a : HostAccess} {c : PCause} (h : busCause a = some c) :
    decodeHost a = .busIllegal a := by
  simp [decodeHost, h]

/-- A read of the `TABLE` window is a read of the entry its address names (R85). -/
theorem decodeHost_read_table {a : Addr} (h : busCause (.read a) = none) (hw : inTableWindow a = true) :
    decodeHost (.read a) = .rdTable (tableIndex a) := by
  simp [decodeHost, h, hw]

/-- Settles O13: a `CMD` write is decoded by its word, and a word that is neither command fails R82's field test. -/
theorem exactlyTwoCommandWords : Obligations.ExactlyTwoCommandWords := by
  refine ⟨rfl, rfl, fun w hc hcc => ?_⟩
  have hill : commandLegal w = false := (commandLegal_eq_false_iff w).2 ⟨hc, hcc⟩
  exact ⟨by simp [decodeHost_write_cmd, hill], (commandLegal_eq_false_iff_fields w).1 hill⟩

/-! ## The outcome of every host access (R86) -/

section
variable (s : State)

/-- R86 cases 1 to 4: the access is rejected with its cause. -/
theorem exec_decodeHost_of_busCause_some {a : HostAccess} {c : PCause} (h : busCause a = some c) :
    exec (decodeHost a) s = .next (rejectAccess a c s) := by
  rw [decodeHost_of_busCause_some h, exec_busIllegal_next]
  exact ⟨c, h, rfl⟩

/-- R86 cases 7b to 7e: a legal command word starts a computation in `IDLE` only. -/
theorem startCommand_eq_ite (c : Bool) : startCommand c s =
    if s.phase = .tblgen then raiseProtocolError .cmdTblgen s
    else if s.phase ≠ .idle then raiseProtocolError .cmdBusy s
    else started c s := by
  cases h : s.phase <;> simp [startCommand, h]

/-- R86 cases 7a to 7e: a write to `CMD`. -/
theorem exec_decodeHost_write_cmd (w : Word) : exec (decodeHost (.write 0x000#12 w)) s = .next (
    if w.extractLsb' 0 4 ≠ 0x1#4 ∨ w.extractLsb' 5 27 ≠ 0#27 then rejectAccess (.write 0x000#12 w) .cmdIllegal s
    else if s.phase = .tblgen then rejectAccess (.write 0x000#12 w) .cmdTblgen s
    else if s.phase ≠ .idle then rejectAccess (.write 0x000#12 w) .cmdBusy s
    else if w = 0x00000001#32 then started false s
    else started true s) := by
  simp only [decodeHost_write_cmd, ← commandLegal_eq_false_iff_fields, rejectAccess]
  cases hw : commandLegal w with
  | false => simp [exec_cmdIllegal_next, hw]
  | true =>
    obtain ⟨hc, rfl⟩ | ⟨hc, rfl⟩ := commandLegal_cases w hw
    · simp [hc, exec_compute_next, startCommand_eq_ite]
    · simp [hc, exec_computeCopy_next, startCommand_eq_ite]

/-- R86 case 5: a read of the `TABLE` window. -/
theorem exec_decodeHost_read_table {a : Addr} (h : busCause (.read a) = none) (hw : inTableWindow a = true) :
    exec (decodeHost (.read a)) s = .next (
      if s.tblrdy = false then rejectAccess (.read a) .tblNotReady s
      else returnRead (tableAt s.table (tableIndex a)) s) := by
  rw [decodeHost_read_table h hw, exec_rdTable_next]
  cases s.tblrdy <;> simp [rejectAccess]

/-- R86 case 6: a read of a register but `CMD`. -/
theorem exec_decodeHost_read_register {a : Addr}
    (ha : a = 0x004#12 ∨ a = 0x008#12 ∨ a = 0x00C#12 ∨ a = 0x010#12 ∨ a = 0x014#12) :
    exec (decodeHost (.read a)) s = .next (
      if a = 0x004#12 then returnRead (statusWord s) s
      else if a = 0x008#12 then returnRead s.result s
      else if a = 0x00C#12 then returnRead (countLo s.count) s
      else if a = 0x010#12 then returnRead (countHi s.count) s
      else returnRead s.errinfo s) := by
  rcases ha with rfl | rfl | rfl | rfl | rfl <;> rfl

end

/-- The cause of an access of either direction: the alignment, the map, then the direction (R86 cases 1 to 4). -/
theorem busCause_eq (a : HostAccess) : busCause a =
    if a.addr.extractLsb' 0 2 ≠ 0#2 then some .busMisaligned
    else if ¬ (a.addr.toNat ≤ 0x014 ∨ (0x400 ≤ a.addr.toNat ∧ a.addr.toNat ≤ 0x7FC)) then some .busUnmapped
    else match a with
      | .write addr _ => if addr ≠ 0x000#12 then some .busRoWrite else none
      | .read addr => if addr = 0x000#12 then some .busWoRead else none := by
  simp only [addr_low_bits]
  cases a with
  | read addr => exact busCause_read addr
  | write addr w => exact busCause_write w addr

/-- Settles O29: an access with a cause is rejected with it; what is left is a write to `CMD`, a read of the window or
a read of one of five registers. -/
theorem hostAccessHasTheFirstCase : Obligations.HostAccessHasTheFirstCase := by
  intro a s
  have rejected {c : PCause} (h : busCause a = some c) := exec_decodeHost_of_busCause_some s h
  have hcause := busCause_eq a
  by_cases hmis : a.addr.extractLsb' 0 2 ≠ 0#2
  · rw [if_pos hmis] at hcause ⊢
    exact rejected hcause
  rw [if_neg hmis] at hcause ⊢
  by_cases hunmapped : ¬ (a.addr.toNat ≤ 0x014 ∨ (0x400 ≤ a.addr.toNat ∧ a.addr.toNat ≤ 0x7FC))
  · rw [if_pos hunmapped] at hcause ⊢
    exact rejected hcause
  rw [if_neg hunmapped] at hcause ⊢
  cases a with
  | write addr w =>
    by_cases hro : addr ≠ 0x000#12
    · simp only [if_pos hro] at hcause ⊢
      exact rejected hcause
    · obtain rfl : addr = 0x000#12 := not_not.1 hro
      simp only [if_neg hro]
      exact exec_decodeHost_write_cmd s w
  | read addr =>
    by_cases hwo : addr = 0x000#12
    · simp only [if_pos hwo] at hcause ⊢
      exact rejected hcause
    · simp only [if_neg hwo] at hcause ⊢
      have haligned : addr.toNat % 4 = 0 := not_not.1 (mt (addr_low_bits addr).2 hmis)
      obtain ⟨hwindow, hindex, hregister⟩ := mapped_read_address addr haligned (not_not.1 hunmapped) hwo
      by_cases hw : 0x400 ≤ addr.toNat
      · rw [if_pos hw, ← hindex hw]
        exact exec_decodeHost_read_table s hcause (by simp [hwindow, hw])
      · rw [if_neg hw]
        exact exec_decodeHost_read_register s (hregister hw)

/-! ## The step of every event (R87) -/

/-- `SEL` is `EV` above the three bits of `PHASE`. -/
theorem selector_toNat (ev : Event) (p : Phase) :
    (selector ev p).toNat = (eventCode ev).toNat * 8 + (phaseCode p).toNat := by
  rw [selector, BitVec.toNat_append, ← Nat.shiftLeft_add_eq_or_of_lt (phaseCode p).isLt, Nat.shiftLeft_eq]

/-! In the events with operands, `change` writes the selector without them, so that it is a literal in each phase. -/

section
variable (c : DecodeCtx) (p : Phase)

/-- INTERNAL is the core's own step: it has one in `TBLGEN` and in `PROC`. -/
theorem decode_internal : decode c (transactionOf .internal p) =
    if p = .tblgen then .instr .tblGen
    else if p = .proc then .instr (if c.buflen = 0#32 then .finish else .chunk)
    else .reject (.noStep (selector .internal p)) := by
  cases p <;> rfl

/-- The input agent's bytes have a step where the block has asked for them, by their number. -/
theorem decode_inData (b : List Byte) : decode c (transactionOf (.inData b) p) =
    if p = .rdwait then
      (if b.length ≤ c.bufSize then .instr (.rdResp b)
       else if b.length < 2 ^ 32 then .instr (.rdLenerr b)
       else .reject .lengthTooWide)
    else .reject (.noStep (selector (.inData b) p)) := by
  change decodeFsm c (1#3 ++ phaseCode p) (.data b) = _
  cases p <;> rfl

/-- The input agent's error has a step where the block has asked for bytes. -/
theorem decode_inErr (e : Word) : decode c (transactionOf (.inErr e) p) =
    if p = .rdwait then .instr (.rdErr e) else .reject (.noStep (selector (.inErr e) p)) := by
  change decodeFsm c (2#3 ++ phaseCode p) (.err e) = _
  cases p <;> rfl

/-- The sink agent's acknowledgement has a step where a write is outstanding. -/
theorem decode_sinkAck : decode c (transactionOf .sinkAck p) =
    if p = .wrwait then .instr .wrAck else .reject (.noStep (selector .sinkAck p)) := by
  cases p <;> rfl

/-- The sink agent's error has a step where a write is outstanding. -/
theorem decode_sinkErr (e : Word) : decode c (transactionOf (.sinkErr e) p) =
    if p = .wrwait then .instr (.wrErr e) else .reject (.noStep (selector (.sinkErr e) p)) := by
  change decodeFsm c (4#3 ++ phaseCode p) (.err e) = _
  cases p <;> rfl

/-- A reset is a step of every phase. -/
theorem decode_reset : decode c (transactionOf .reset p) = .instr .reset := by
  cases p <;> rfl

/-- The reserved event code has no step. -/
theorem decode_reserved : decode c (transactionOf .reserved p) = .reject (.noStep (selector .reserved p)) := by
  cases p <;> rfl

end

/-- Settles O47: the selector's value, the event codes, and the step of each event by phase. -/
theorem eventsSelectTheirSteps : Obligations.EventsSelectTheirSteps := by
  refine ⟨selector_toNat, fun _ _ _ => rfl, fun c p => ⟨?_, ?_, ?_, ?_, ?_, ?_, ?_, ?_, decode_reset c p, ?_⟩⟩
  · rintro rfl
    rw [decode_internal, if_pos rfl]
  · rintro rfl hlen
    simp [decode_internal, hlen]
  · rintro rfl hlen
    simp [decode_internal, hlen]
  · intro htblgen hproc
    exact ⟨_, by rw [decode_internal, if_neg htblgen, if_neg hproc]⟩
  · intro b
    refine ⟨?_, ?_, fun hp => ⟨_, by rw [decode_inData, if_neg hp]⟩⟩
    · rintro rfl hfit
      rw [decode_inData, if_pos rfl, if_pos hfit]
    · rintro rfl hlong hwide
      rw [decode_inData, if_pos rfl, if_neg hlong.not_ge, if_pos hwide]
  · intro e
    refine ⟨?_, fun hp => ⟨_, by rw [decode_inErr, if_neg hp]⟩, ?_, fun hp => ⟨_, by rw [decode_sinkErr, if_neg hp]⟩⟩
    · rintro rfl
      rw [decode_inErr, if_pos rfl]
    · rintro rfl
      rw [decode_sinkErr, if_pos rfl]
  · rintro rfl
    rw [decode_sinkAck, if_pos rfl]
  · exact fun hp => ⟨_, by rw [decode_sinkAck, if_neg hp]⟩
  · exact ⟨_, decode_reserved c p⟩

end Sys2Proof.Machine
end

section
/-!
PROOFS. 40_table_generator.md R100 to R104: the reducer is linear and loses no byte, so the table is fixed by eight
entries; what TBL_GEN does, and the states in which the table holds the listed values.
-/

namespace Sys2Proof.Machine

/-! ## One reducer step (R100) -/

/-- The step as a sum: the shift, and the polynomial where bit 0 is 1. -/
theorem reduceStep_eq_xor (v : Word) :
    reduceStep v = (v >>> 1) ^^^ (if v.getLsbD 0 then Config.poly else 0#32) := by
  rw [reduceStep]
  split
  · rfl
  · rw [BitVec.xor_zero]

/-- The bit shifted out comes back as bit 31: the shift leaves 0 there, and `POLY[31] = 1`. -/
theorem reduceStep_getLsbD_31 (v : Word) : (reduceStep v).getLsbD 31 = v.getLsbD 0 := by
  have hshift : (v >>> 1).getLsbD 31 = false := by simp
  have hpoly : Config.poly.getLsbD 31 = true := by decide
  rw [reduceStep_eq_xor, BitVec.getLsbD_xor, hshift, Bool.false_xor]
  cases v.getLsbD 0
  · rfl
  · exact hpoly

/-- Settles O1: the formula is the definition, and bit 31 of the result is the bit shifted out. -/
theorem reduceStepShiftsAndXors : Obligations.ReduceStepShiftsAndXors :=
  fun v => ⟨rfl, reduceStep_getLsbD_31 v⟩

/-- The two choices of the polynomial add up to the choice by the sum's bit 0, as `POLY ^ POLY = 0` (R102 (a)). -/
theorem reduceStep_xor (a b : Word) : reduceStep (a ^^^ b) = reduceStep a ^^^ reduceStep b := by
  have hpoly : (if (a ^^^ b).getLsbD 0 then Config.poly else 0#32) =
      (if a.getLsbD 0 then Config.poly else 0#32) ^^^ (if b.getLsbD 0 then Config.poly else 0#32) := by
    rw [BitVec.getLsbD_xor]
    cases a.getLsbD 0 <;> cases b.getLsbD 0 <;> simp
  rw [reduceStep_eq_xor, reduceStep_eq_xor a, reduceStep_eq_xor b, BitVec.ushiftRight_xor_distrib, hpoly]
  ac_rfl

/-- A result below 2^31 has bit 31 clear, so no polynomial was added and the step was a shift without loss. -/
theorem toNat_eq_two_mul_reduceStep {v : Word} (h : (reduceStep v).toNat < 2 ^ 31) :
    v.toNat = 2 * (reduceStep v).toNat := by
  have hbit : v.getLsbD 0 = false := by
    rw [← reduceStep_getLsbD_31]
    exact Nat.testBit_lt_two_pow h
  have heven : v.toNat % 2 = 0 := by
    rw [BitVec.getLsbD, Nat.testBit_zero] at hbit
    simpa using hbit
  have hshift : (reduceStep v).toNat = v.toNat / 2 := by
    simp only [reduceStep_eq_xor, hbit, Bool.false_eq_true, if_false, BitVec.xor_zero, BitVec.toNat_ushiftRight,
      Nat.shiftRight_eq_div_pow, Nat.pow_one]
  omega

/-! ## Iterated steps and REDUCE8 (R101, R102) -/

/-- `reduceIter k` is the `k`-fold iterate of the step. -/
theorem reduceIter_eq_iterate (k : Nat) (v : Word) : reduceIter k v = reduceStep^[k] v := by
  induction k generalizing v with
  | zero => rfl
  | succ k ih => rw [reduceIter_succ, ih, Function.iterate_succ_apply]

theorem reduceIter_xor (k : Nat) (a b : Word) : reduceIter k (a ^^^ b) = reduceIter k a ^^^ reduceIter k b := by
  induction k generalizing a b with
  | zero => rfl
  | succ k ih => simp only [reduceIter_succ, reduceStep_xor, ih]

/-- `k` steps whose result has its top `k` bits clear were `k` shifts without loss. -/
theorem toNat_eq_two_pow_mul_reduceIter (k : Nat) (v : Word) (hk : k ≤ 32)
    (h : (reduceIter k v).toNat < 2 ^ (32 - k)) : v.toNat = 2 ^ k * (reduceIter k v).toNat := by
  induction k generalizing v with
  | zero => simp
  | succ k ih =>
    rw [reduceIter_succ] at h ⊢
    have hiter : (reduceStep v).toNat = 2 ^ k * (reduceIter k (reduceStep v)).toNat :=
      ih _ (by omega) (h.trans_le (Nat.pow_le_pow_right (by omega) (by omega)))
    have hstep : (reduceStep v).toNat < 2 ^ 31 :=
      calc (reduceStep v).toNat
        _ < 2 ^ k * 2 ^ (32 - (k + 1)) := hiter ▸ Nat.mul_lt_mul_of_pos_left h (Nat.two_pow_pos k)
        _ = 2 ^ 31 := by rw [← Nat.pow_add]; congr 1; omega
    rw [toNat_eq_two_mul_reduceStep hstep, hiter, Nat.pow_succ', Nat.mul_assoc]

theorem reduce8_xor (a b : Byte) : reduce8 (a ^^^ b) = reduce8 a ^^^ reduce8 b := by
  rw [reduce8, BitVec.setWidth_xor, reduceIter_xor, reduce8, reduce8]

/-- Only the byte 0 has an entry whose top byte is 0: with the top byte 0 all eight steps were shifts without loss, so
the byte is a multiple of 2^8. -/
theorem eq_zero_of_reduce8_topByte {i : Byte} (h : (reduce8 i).extractLsb' 24 8 = 0#8) : i = 0#8 := by
  have htop : (reduce8 i).toNat < 2 ^ 24 := by
    have hdiv : (reduce8 i).toNat / 2 ^ 24 % 2 ^ 8 = 0 := by
      simpa [Nat.shiftRight_eq_div_pow] using congrArg BitVec.toNat h
    have := (reduce8 i).isLt
    omega
  have hshifts : i.toNat = 2 ^ 8 * (reduce8 i).toNat :=
    calc i.toNat
      _ = (i.setWidth 32).toNat := (BitVec.toNat_setWidth_of_le (by decide)).symm
      _ = 2 ^ 8 * (reduce8 i).toNat := toNat_eq_two_pow_mul_reduceIter 8 _ (by decide) htop
  have hzero : i.toNat = 0 := by
    have := i.isLt
    omega
  exact BitVec.eq_of_toNat_eq hzero

/-- The top byte of an entry determines the index, by linearity. -/
theorem reduce8_topByte_injective : Function.Injective fun i : Byte => (reduce8 i).extractLsb' 24 8 := by
  intro a b (hab : (reduce8 a).extractLsb' 24 8 = (reduce8 b).extractLsb' 24 8)
  have hxor : (reduce8 (a ^^^ b)).extractLsb' 24 8 = 0#8 := by
    rw [reduce8_xor, BitVec.extractLsb'_xor, hab, BitVec.xor_self]
  exact BitVec.xor_eq_zero_iff.1 (eq_zero_of_reduce8_topByte hxor)

/-- Settles O2: the model's iteration is the iterate of the step, and the four listed entries are evaluated. -/
theorem reduce8RunsEightSteps : Obligations.Reduce8RunsEightSteps :=
  ⟨fun i => reduceIter_eq_iterate 8 (i.setWidth 32), by decide, by decide, by decide, by decide⟩

/-! ## Linear tables (R102 (d)) -/

/-- A table is linear when its entry at an exclusive-or is the exclusive-or of the entries (R102 (a)). -/
def LinearTable (t : Table) : Prop := ∀ a b : Byte, tableAt t (a ^^^ b) = tableAt t a ^^^ tableAt t b

theorem crcTable_linear : LinearTable crcTable := by
  intro a b
  simp only [tableAt_crcTable, reduce8_xor]

theorem twoPow_eq_ofNat (k : Nat) : BitVec.twoPow 8 k = BitVec.ofNat 8 (2 ^ k) := by
  apply BitVec.eq_of_toNat_eq
  rw [BitVec.toNat_twoPow, BitVec.toNat_ofNat]

section
variable {t u : Table}

theorem LinearTable.tableAt_zero (ht : LinearTable t) : tableAt t 0#8 = 0#32 := by
  have h := ht 0#8 0#8
  rwa [BitVec.xor_self, BitVec.xor_self] at h

/-- Bit by bit: two linear tables that agree on the powers of two below `2^n` agree on every byte whose bits from `n`
on are 0. -/
theorem LinearTable.tableAt_eq_of_low_bits (ht : LinearTable t) (hu : LinearTable u) {n : Nat}
    (hpow : ∀ k < n, tableAt t (BitVec.twoPow 8 k) = tableAt u (BitVec.twoPow 8 k)) {a : Byte}
    (ha : ∀ j, n ≤ j → a.getLsbD j = false) : tableAt t a = tableAt u a := by
  induction n generalizing a with
  | zero =>
    obtain rfl : a = 0#8 := BitVec.eq_of_getLsbD_eq fun j _ => by simpa using ha j (Nat.zero_le j)
    rw [ht.tableAt_zero, hu.tableAt_zero]
  | succ n ih =>
    have low {c : Byte} (hc : ∀ j, n ≤ j → c.getLsbD j = false) : tableAt t c = tableAt u c :=
      ih (fun k hk => hpow k (Nat.lt_succ_of_lt hk)) hc
    cases hbit : a.getLsbD n with
    | false =>
      refine low fun j hj => ?_
      rcases Nat.eq_or_lt_of_le hj with rfl | hj
      · exact hbit
      · exact ha j hj
    | true =>
      have hrest : tableAt t (a ^^^ BitVec.twoPow 8 n) = tableAt u (a ^^^ BitVec.twoPow 8 n) := by
        refine low fun j hj => ?_
        rw [BitVec.getLsbD_xor, BitVec.getLsbD_twoPow]
        rcases Nat.eq_or_lt_of_le hj with rfl | hj
        · simp [hbit, BitVec.lt_of_getLsbD hbit]
        · simp [ha j hj, hj.ne]
      have hsplit : a = (a ^^^ BitVec.twoPow 8 n) ^^^ BitVec.twoPow 8 n := by
        rw [BitVec.xor_assoc, BitVec.xor_self, BitVec.xor_zero]
      rw [hsplit, ht, hu, hrest, hpow n (Nat.lt_succ_self n)]

/-- Eight entries fix a linear table. -/
theorem LinearTable.eq_of_powers (ht : LinearTable t) (hu : LinearTable u)
    (hpow : ∀ k < 8, tableAt t (BitVec.twoPow 8 k) = tableAt u (BitVec.twoPow 8 k)) : t = u :=
  table_ext t u fun a => ht.tableAt_eq_of_low_bits hu hpow fun j hj => BitVec.getLsbD_of_ge a j hj

end

/-- Settles O3: linearity of the step carries over to REDUCE8 and the table; the top bytes are injective, hence
bijective; a linear table is fixed bit by bit. -/
theorem reducerLaws : Obligations.ReducerLaws := by
  refine ⟨reduceStep_xor, reduce8_xor, crcTable_linear, by decide,
    Finite.injective_iff_bijective.1 reduce8_topByte_injective, ?_, fun t u ht hu h => ?_⟩
  · simp only [List.map_cons, List.map_nil, tableAt_crcTable]
    decide
  · refine LinearTable.eq_of_powers ht hu fun k hk => ?_
    rw [twoPow_eq_ofNat]
    exact h k hk

/-! ## TBL_GEN (R103) -/

/-- Settles O11: the rule of TBL_GEN and of RESET, and `exec_phase_ne_tblgen` for every other instruction. -/
theorem tblGenFillsTheTableOnce : Obligations.TblGenFillsTheTableOnce := by
  refine ⟨fun _ => rfl, fun s hp => (exec_tblGen_next s _).2 ⟨hp, rfl⟩, fun s hp => ?_, fun i s t h ht => ?_,
    fun s t h => ?_⟩
  · exact (whenEnabled_eq_refused ..).2 ⟨decide_eq_false hp, rfl⟩
  · by_contra hcon
    obtain ⟨hp, hi⟩ := not_or.1 hcon
    exact exec_phase_ne_tblgen h hi hp ht
  · obtain rfl := (exec_reset_next s t).1 h
    rw [resetState_phase]
    cases s.cfg.tableImpl <;> simp [phaseAfterReset]

/-! ## The contents of the table (R104) -/

/-- The rule's list is `REDUCE8` of the indices in order. -/
theorem listedTable_eq_map_reduce8 : listedTable = (List.range 256).map fun i => reduce8 (BitVec.ofNat 8 i) := by
  decide +kernel

theorem listedTable_getElem? (i : Byte) : listedTable[i.toNat]? = some (reduce8 i) := by
  rw [listedTable_eq_map_reduce8, List.getElem?_map, List.getElem?_range i.isLt, Option.map_some,
    BitVec.ofNat_toNat, BitVec.setWidth_eq]

/-- The ROM holds its table from power-up (R105). -/
theorem powerUp_table_of_rom {c : Config} (hc : c.tableImpl = .rom) : (powerUp c).table = crcTable := by
  simp [powerUp, hc]

/-- RESET leaves the ROM's table (R105, R210). -/
theorem resetState_table_of_rom {s : State} (hs : s.cfg.tableImpl = .rom) : (resetState s).table = crcTable := by
  rw [resetState_table, hs, tableAfterReset]

/-- Settles O4: the three states hold `crcTable`, whose entries are `REDUCE8`, and so are those of the list. -/
theorem tableHoldsTheListedValues : Obligations.TableHoldsTheListedValues := by
  refine ⟨fun s t h i => ?_, fun c hc i => ?_, fun s t hs h i => ?_, ?_, listedTable_getElem?⟩
  · obtain ⟨-, rfl⟩ := (exec_tblGen_next s t).1 h
    exact tableAt_crcTable i
  · rw [powerUp_table_of_rom hc, tableAt_crcTable]
  · obtain rfl := (exec_reset_next s t).1 h
    rw [resetState_table_of_rom hs, tableAt_crcTable]
  · rw [listedTable_eq_map_reduce8, List.length_map, List.length_range]

end Sys2Proof.Machine
end

section
/-!
PROOFS. 41_stream_accumulator.md R120 to R122: the byte update by its formula and as eight reducer steps, and FOLD over
a concatenation.
-/

namespace Sys2Proof.Machine

/-! ## The byte update (R120, R121) -/

/-- A step on an even word is a shift. -/
theorem reduceStep_of_even {v : Word} (h : v.getLsbD 0 = false) : reduceStep v = v >>> 1 := by
  rw [reduceStep_eq_xor, h, if_neg Bool.false_ne_true, BitVec.xor_zero]

/-- With the `k` low bits clear, no polynomial is added in `k` steps. -/
theorem reduceIter_of_low_bits_clear (k : Nat) (v : Word) (h : ∀ j < k, v.getLsbD j = false) :
    reduceIter k v = v >>> k := by
  induction k generalizing v with
  | zero => simp
  | succ k ih =>
    have hshift : ∀ j < k, (v >>> 1).getLsbD j = false := by
      intro j hj
      rw [BitVec.getLsbD_ushiftRight]
      exact h (1 + j) (by omega)
    rw [reduceIter_succ, reduceStep_of_even (h 0 (Nat.succ_pos k)), ih _ hshift, ← BitVec.shiftRight_add,
      Nat.add_comm]

/-- A word is its upper 24 bits and its low byte. -/
theorem upper_xor_lowByte (v : Word) : (v >>> 8) <<< 8 ^^^ (v.setWidth 8).setWidth 32 = v := by
  ext j hj
  by_cases h : j < 8
  · simp [h, hj]
  · simp [h, show 8 + (j - 8) = j by omega, BitVec.getLsbD_eq_getElem hj]

/-- Eight steps take the low byte through the table and shift the upper bytes down (R121, by R102 (a)). -/
theorem reduceIter_eight (v : Word) : reduceIter 8 v = (v >>> 8) ^^^ reduce8 (v.setWidth 8) := by
  have hclear : ∀ j < 8, ((v >>> 8) <<< 8).getLsbD j = false := by
    intro j hj
    simp [hj]
  have hupper : ((v >>> 8) <<< 8) >>> 8 = v >>> 8 := by
    ext j
    simpa using BitVec.lt_of_getLsbD (x := v)
  calc reduceIter 8 v
    _ = reduceIter 8 ((v >>> 8) <<< 8) ^^^ reduceIter 8 ((v.setWidth 8).setWidth 32) := by
      rw [← reduceIter_xor, upper_xor_lowByte]
    _ = (v >>> 8) ^^^ reduce8 (v.setWidth 8) := by rw [reduceIter_of_low_bits_clear 8 _ hclear, hupper, reduce8]

/-- Settles O6: the byte lies in the low byte, which is the one that goes through the table. -/
theorem byteUpdateIsEightReducerSteps : Obligations.ByteUpdateIsEightReducerSteps := by
  intro acc b
  have hupper : (acc ^^^ b.setWidth 32) >>> 8 = acc >>> 8 := by
    ext j
    simp
  have hlow : (acc ^^^ b.setWidth 32).setWidth 8 = b ^^^ acc.setWidth 8 := by
    rw [BitVec.setWidth_xor, BitVec.setWidth_setWidth_of_le _ (by decide), BitVec.setWidth_eq, BitVec.xor_comm]
  rw [← reduceIter_eq_iterate, reduceIter_eight, hupper, hlow, byteUpdate_crcTable]

/-- Settles O5: `acc[7:0]` is the low byte, and the entry of index 0 is 0. -/
theorem byteUpdateFormula : Obligations.ByteUpdateFormula := by
  have hbyte (acc : Word) : acc.extractLsb' 0 8 = acc.setWidth 8 := (BitVec.setWidth_eq_extractLsb' (by decide)).symm
  refine ⟨fun t acc b => by rw [hbyte, byteUpdate], fun acc b hb => ?_⟩
  have hzero : reduce8 0#8 = 0#32 := by decide
  rw [hb, hbyte, byteUpdate_crcTable, BitVec.xor_self, hzero, BitVec.xor_zero]

/-! ## FOLD (R122) -/

theorem fold_append (t : Table) (acc : Word) (u v : List Byte) : fold t acc (u ++ v) = fold t (fold t acc u) v := by
  induction u generalizing acc with
  | nil => rfl
  | cons b u ih => exact ih (byteUpdate t acc b)

/-- Settles O7: the equations are the definition's, and a concatenation is folded one part after the other. -/
theorem foldOverConcatenation : Obligations.FoldOverConcatenation :=
  ⟨fold_nil, fold_cons, fun _ => rfl, fold_append⟩

end Sys2Proof.Machine
end

section
/-!
PROOFS. 41_stream_accumulator.md R123 to R129: the two commands, the mux, and the steps of a computation.
-/

namespace Sys2Proof.Machine

/-! ## The commands (R123, R124) -/

/-- A legal command word, written out: the START effect in `IDLE`, a protocol error in every other phase. -/
theorem startCommand_outcomes (copy : Bool) (s : State) :
    (s.phase = .idle → startCommand copy s = { s with
      acc := 0xFFFFFFFF#32, count := 0#64, copy := copy, done := false, ioerr := false, errsrc := .inErr,
      errinfo := 0x00000000#32, phase := .rdwait }) ∧
    (s.phase = .tblgen → startCommand copy s = { s with
      perr := true, pcause := if s.perr = true then s.pcause else .cmdTblgen }) ∧
    (s.phase ≠ .idle → s.phase ≠ .tblgen → startCommand copy s = { s with
      perr := true, pcause := if s.perr = true then s.pcause else .cmdBusy }) := by
  refine ⟨fun hidle => ?_, fun htblgen => ?_, fun hidle htblgen => ?_⟩
  · rw [startCommand, hidle]; rfl
  · rw [startCommand_eq_ite, if_pos htblgen]; rfl
  · rw [startCommand_eq_ite, if_neg htblgen, if_pos hidle]; rfl

/-- Settles O14: COMPUTE is the command with `COPY <- 0`. -/
theorem computeStartsWithoutSink : Obligations.ComputeStartsWithoutSink := by
  refine ⟨rfl, fun s => ?_⟩
  simp only [exec_compute_next]
  exact startCommand_outcomes false s

/-- Settles O15: COMPUTE_COPY is the command with `COPY <- 1`. -/
theorem computeCopyStartsWithSink : Obligations.ComputeCopyStartsWithSink := by
  refine ⟨rfl, fun s => ?_⟩
  simp only [exec_computeCopy_next]
  exact startCommand_outcomes true s

/-! ## Storing a chunk and the mux (R125, R126) -/

/-- With legal parameters a chunk that fits has a 32-bit length (00_scope.md R7). -/
theorem length_lt_of_fits {c : Config} {b : List Byte} (hc : c.wf = true) (hb : b.length ≤ c.bufSize) :
    b.length < 2 ^ 32 := by
  simp only [Config.wf, Bool.and_eq_true, decide_eq_true_eq] at hc
  omega

/-- The length word of a chunk is 0 for the empty chunk only. -/
theorem answerLength_eq_zero_iff {b : List Byte} (hb : b.length < 2 ^ 32) : answerLength b = 0#32 ↔ b = [] := by
  rw [← BitVec.toNat_inj, answerLength_toNat b hb]
  exact List.length_eq_zero_iff

/-- The chunk read back from `BUF` is the one that was stored. -/
theorem chunkBytes_storeChunk {b : List Byte} (hb : b.length < 2 ^ 32) (s : State) :
    chunkBytes (storeChunk b s) = b := by
  rw [chunkBytes, storeChunk_buflen, answerLength_toNat b hb, storeChunk_buf, writeBuf_take]

/-- `sink_write_enable(n)` (R125). -/
theorem sinkWriteEnable_eq_true_iff (s : State) (n : Nat) :
    sinkWriteEnable s n = true ↔ s.copy = true ∧ ¬ (s.cfg.skipZeroLenWrite = true ∧ n = 0) := by
  rw [sinkWriteEnable, Bool.and_eq_true, Bool.not_eq_true', ← Bool.not_eq_true, Bool.and_eq_true, decide_eq_true_eq]

/-- An enabled mux leaves `SinkWrite(BUFLEN, BUF[0..BUFLEN-1])` outstanding. -/
theorem outstanding_routeChunk_enabled {s : State} {n : Nat} (h : sinkWriteEnable s n = true) :
    (routeChunk n s).phase = .wrwait ∧
      outstanding (routeChunk n s) = some (.sinkWrite s.buflen (chunkBytes s)) := by
  rw [routeChunk, if_pos h]
  exact ⟨rfl, rfl⟩

/-- A mux that is not enabled leaves nothing outstanding. -/
theorem outstanding_routeChunk_disabled {s : State} {n : Nat} (h : ¬ sinkWriteEnable s n = true) :
    (routeChunk n s).phase = .proc ∧ outstanding (routeChunk n s) = none := by
  rw [routeChunk, if_neg h]
  exact ⟨rfl, rfl⟩

/-- Settles O16: the mux decides on `COPY`, `SKIP_ZERO_LEN_WRITE` and `n`, and the chunk it sends is the stored one. -/
theorem muxSendsExactlyTheChunk : Obligations.MuxSendsExactlyTheChunk := by
  intro s b hwf hp hfit
  refine ⟨_, (exec_rdResp_next s _ b).2 ⟨⟨hp, hfit⟩, rfl⟩, fun henable => ?_, fun hdisable => ?_⟩
  · have henabled := (sinkWriteEnable_eq_true_iff (storeChunk b (logInput (.data b) s)) b.length).2 henable
    obtain ⟨hphase, hout⟩ := outstanding_routeChunk_enabled henabled
    rw [chunkBytes_storeChunk (length_lt_of_fits hwf hfit)] at hout
    exact ⟨hphase, hout⟩
  · exact outstanding_routeChunk_disabled
      (mt (sinkWriteEnable_eq_true_iff (storeChunk b (logInput (.data b) s)) b.length).1 hdisable)

@[simp] theorem routeChunk_buf (n : Nat) (s : State) : (routeChunk n s).buf = s.buf := by rw [routeChunk_frame]
@[simp] theorem routeChunk_buflen (n : Nat) (s : State) : (routeChunk n s).buflen = s.buflen := by rw [routeChunk_frame]

/-- The phase after the mux (R126). -/
theorem routeChunk_phase (n : Nat) (s : State) : (routeChunk n s).phase =
    if s.copy = true ∧ ¬ (s.cfg.skipZeroLenWrite = true ∧ n = 0) then .wrwait else .proc := by
  simp only [← sinkWriteEnable_eq_true_iff, routeChunk]
  split <;> rfl

/-- Settles O17: the stored bytes by `writeBuf_getElem?`, the phase by the mux, and the mux's frame for the rest. -/
theorem rdRespStoresTheChunk : Obligations.RdRespStoresTheChunk := by
  refine ⟨fun c b hfit => if_pos hfit, fun s b hwf hp hfit => ?_, fun s b hnot => ?_⟩
  · refine ⟨_, (exec_rdResp_next s _ b).2 ⟨⟨hp, hfit⟩, rfl⟩, ?_, fun j hj => ?_, fun j hj => ?_,
      routeChunk_phase .., ?_⟩
    · rw [routeChunk_buflen]
      exact answerLength_toNat b (length_lt_of_fits hwf hfit)
    · rw [bufByte, routeChunk_buf, storeChunk_buf, writeBuf_getElem?, if_pos hj]
    · rw [bufByte, routeChunk_buf, storeChunk_buf, writeBuf_getElem?, if_neg hj.not_gt]; rfl
    · rw [routeChunk_frame]; rfl
  · refine (whenEnabled_eq_refused ..).2 ⟨?_, rfl⟩
    simpa [or_iff_not_imp_left] using hnot

/-! ## WR_ACK, CHUNK and FINISH (R127 to R129) -/

/-- Settles O18: after WR_ACK the phase is `PROC`, where the core's step goes by `BUFLEN`. -/
theorem wrAckLeadsToProc : Obligations.WrAckLeadsToProc := by
  refine ⟨fun _ => rfl, fun s hp => ?_, fun s hp => ?_⟩
  · refine ⟨_, (exec_wrAck_next s _).2 ⟨hp, rfl⟩, rfl, fun hlen => ?_, fun hlen => ?_⟩
    · simp [decode_internal, decodeCtx, hlen]
    · simp [decode_internal, decodeCtx, hlen]
  · exact (whenEnabled_eq_refused ..).2 ⟨decide_eq_false hp, rfl⟩

/-- Settles O19: CHUNK's rule, with the 64-bit sum as a number. -/
theorem chunkCountsAndFolds : Obligations.ChunkCountsAndFolds := by
  refine ⟨fun c hlen => ?_, fun s hp hlen => ?_, fun s hnot => ?_⟩
  · change Decoded.instr (if c.buflen = 0#32 then .finish else .chunk) = _
    rw [if_neg hlen]
  · refine ⟨_, (exec_chunk_next s _).2 ⟨⟨hp, hlen⟩, rfl⟩, ?_, rfl⟩
    simp [BitVec.toNat_add]
  · refine (whenEnabled_eq_refused ..).2 ⟨?_, rfl⟩
    simpa [or_iff_not_imp_left] using hnot

/-- Settles O20: FINISH's rule; the complement is the exclusive-or with all ones. -/
theorem finishPublishesTheComplement : Obligations.FinishPublishesTheComplement := by
  refine ⟨fun c hlen => ?_, fun s hp hlen => ?_, fun s hnot => ?_⟩
  · change Decoded.instr (if c.buflen = 0#32 then .finish else .chunk) = _
    rw [if_pos hlen]
  · have hcompl : 0xFFFFFFFF#32 ^^^ s.acc = ~~~ s.acc := BitVec.allOnes_xor
    rw [exec_finish_next, hcompl]
    exact ⟨⟨hp, hlen⟩, rfl⟩
  · refine (whenEnabled_eq_refused ..).2 ⟨?_, rfl⟩
    simpa [or_iff_not_imp_left] using hnot

end Sys2Proof.Machine
end

section
/-!
PROOFS. Runs with host accesses among the events (20_memory.md R71, R73): while the block computes, a host access
changes `RDATA`, `PERR` and `PCAUSE` only, so it commutes with every step of a computation.
-/

namespace Sys2Proof.Machine

/-! ## The part of the state that host accesses change -/

/-- What a host access to a computing block changes, and the events to come. -/
structure HostView where
  rdata : Word
  perr : Bool
  pcause : PCause
  agenda : List Event

/-- The host's part of a state. -/
def State.hostView (s : State) : HostView :=
  { rdata := s.rdata, perr := s.perr, pcause := s.pcause, agenda := s.agenda }

/-- The state `s` with the host's part `h`. -/
def State.withHost (s : State) (h : HostView) : State :=
  { s with rdata := h.rdata, perr := h.perr, pcause := h.pcause, agenda := h.agenda }

/-- The mux does not look at the host's part. -/
theorem routeChunk_withHost (n : Nat) (s : State) (h : HostView) :
    routeChunk n (s.withHost h) = (routeChunk n s).withHost h := by
  rcases routeChunk_cases n s with ⟨he, e⟩ | ⟨he, e⟩
  · rw [e]; exact if_pos he
  · rw [e]; exact if_neg (Bool.not_eq_true _ ▸ he)

/-! ## The steps of a computation, by the event that brings them -/

/-- In `s` the event `ev` of the core, the input or the sink brings the step to `t` (R126 to R129). -/
inductive Advances : Event → State → State → Prop
  | rdResp {s : State} (b : List Byte) (hp : s.phase = .rdwait) (hfit : b.length ≤ s.cfg.bufSize) :
      Advances (.inData b) s (routeChunk b.length (storeChunk b (logInput (.data b) s)))
  | wrAck {s : State} (hp : s.phase = .wrwait) : Advances .sinkAck s { logSinkAnswer .ack s with phase := .proc }
  | chunk {s : State} (hp : s.phase = .proc) (hlen : s.buflen ≠ 0#32) :
      Advances .internal s { s with
        count := s.count + s.buflen.setWidth 64, acc := fold s.table s.acc (chunkBytes s), phase := .rdwait }
  | finish {s : State} (hp : s.phase = .proc) (hlen : s.buflen = 0#32) :
      Advances .internal s { s with result := ~~~ s.acc, done := true, phase := .idle }

/-- The events `evs` lead from one state to another, a step each. -/
inductive Path : State → List Event → State → Prop
  | nil (s : State) : Path s [] s
  | cons {s s' t : State} {ev : Event} {evs : List Event} (hstep : Advances ev s s') (hpath : Path s' evs t) :
      Path s (ev :: evs) t

theorem Path.append {s s' t : State} {evs evs' : List Event} (h : Path s evs s') (h' : Path s' evs' t) :
    Path s (evs ++ evs') t := by
  induction h with
  | nil => exact h'
  | cons hstep _ ih => exact .cons hstep (ih h')

theorem Advances.path {s t : State} {ev : Event} (h : Advances ev s t) : Path s [ev] t := .cons h (.nil t)

/-- The steps of a computation are taken in its phases only (10_state.md R23). -/
theorem Advances.busy {s t : State} {ev : Event} (h : Advances ev s t) : busy s = true := by
  rw [busy_eq_true_iff]
  cases h <;> simp [*]

theorem Path.busy {s t : State} {evs : List Event} (h : Path s evs t) (hne : evs ≠ []) : busy s = true := by
  cases h with
  | nil => exact absurd rfl hne
  | cons hstep _ => exact hstep.busy

/-- The steps of a computation neither read nor write the host's part. -/
theorem Advances.withHost {s t : State} {ev : Event} (h : Advances ev s t) (v : HostView) :
    Advances ev (s.withHost v) (t.withHost v) := by
  cases h with
  | rdResp b hp hfit =>
    rw [← routeChunk_withHost]
    exact .rdResp (s := s.withHost v) b hp hfit
  | wrAck hp => exact .wrAck (s := s.withHost v) hp
  | chunk hp hlen => exact .chunk (s := s.withHost v) hp hlen
  | finish hp hlen => exact .finish (s := s.withHost v) hp hlen

/-! ## One step of the machine -/

/-- The agenda's first event, decoded in the state it finds, runs with that event taken off. -/
theorem step_of_agenda {s : State} {ev : Event} {rest : List Event} {i : Instr} (h : s.agenda = ev :: rest)
    (hd : decode (decodeCtx s) (transactionOf ev s.phase) = .instr i) : step s = exec i { s with agenda := rest } := by
  obtain ⟨hnext, htake⟩ := nextEvent_takeEvent (upcoming_of_agenda h)
  simp only [step, hnext, hd, htake]

/-- The event of a step of a computation decodes to an instruction that takes the step. -/
theorem Advances.exec_eq {s t : State} {ev : Event} (h : Advances ev s t) :
    ∃ i, decode (decodeCtx s) (transactionOf ev s.phase) = .instr i ∧ exec i s = .next t := by
  cases h with
  | rdResp b hp hfit =>
    refine ⟨.rdResp b, ?_, (exec_rdResp_next ..).2 ⟨⟨hp, hfit⟩, rfl⟩⟩
    rw [decode_inData, if_pos hp]
    exact if_pos hfit
  | wrAck hp => exact ⟨.wrAck, by rw [decode_sinkAck, if_pos hp], (exec_wrAck_next ..).2 ⟨hp, rfl⟩⟩
  | chunk hp hlen =>
    refine ⟨.chunk, ?_, (exec_chunk_next ..).2 ⟨⟨hp, hlen⟩, rfl⟩⟩
    simp [decode_internal, decodeCtx, hp, hlen]
  | finish hp hlen =>
    refine ⟨.finish, ?_, (exec_finish_next ..).2 ⟨⟨hp, hlen⟩, rfl⟩⟩
    simp [decode_internal, decodeCtx, hp, hlen]

/-- A step of a computation is taken when its event is the agenda's first, whatever the host's part. -/
theorem Advances.step_eq {s t : State} {ev : Event} (h : Advances ev s t) {v : HostView} {rest : List Event}
    (hv : v.agenda = ev :: rest) : step (s.withHost v) = .next (t.withHost { v with agenda := rest }) := by
  obtain ⟨i, hd, he⟩ := (h.withHost { v with agenda := rest }).exec_eq
  have hstep : step (s.withHost v) = exec i (s.withHost { v with agenda := rest }) := step_of_agenda hv hd
  rw [hstep, he]

/-! ## A host access while the block computes (R73) -/

/-- From `s` to `t` the host's part has changed at most, and no event was taken or put on the agenda. -/
def HostTouches (s t : State) : Prop := ∃ v : HostView, t = s.withHost v ∧ v.agenda = s.agenda

theorem hostTouches_rejectAccess (a : HostAccess) (c : PCause) (s : State) : HostTouches s (rejectAccess a c s) :=
  ⟨⟨_, _, _, _⟩, rejectAccess_eq a c s, rfl⟩

theorem hostTouches_returnRead (w : Word) (s : State) : HostTouches s (returnRead w s) :=
  ⟨{ s.hostView with rdata := w }, rfl, rfl⟩

/-- Every host access to a computing block completes and touches the host's part only: the one case of R86 that does
more is a command in `IDLE`. -/
theorem exec_decodeHost_of_busy (a : HostAccess) {s : State} (hb : busy s = true) :
    ∃ t, exec (decodeHost a) s = .next t ∧ HostTouches s t := by
  have hidle : s.phase ≠ .idle := fun h => by simp [busy, h] at hb
  have rejected (c : PCause) := hostTouches_rejectAccess a c s
  have returned (w : Word) := hostTouches_returnRead w s
  refine ⟨_, hostAccessHasTheFirstCase a s, ?_⟩
  cases a with
  | read addr =>
    -- a misaligned address; `CMD`, the window and the five other registers; an unmapped address
    dsimp only
    split_ifs
    exacts [rejected _, rejected _, rejected _, returned _, returned _, returned _, returned _, returned _,
      returned _, rejected _]
  | write addr w =>
    dsimp only
    split_ifs
    all_goals exact rejected _

/-- A host access to a computing block is a step of the machine. -/
theorem step_host_of_busy {s : State} (hb : busy s = true) {a : HostAccess} {v : HostView} {rest : List Event}
    (hv : v.agenda = .host a :: rest) :
    ∃ v', step (s.withHost v) = .next (s.withHost v') ∧ v'.agenda = rest := by
  obtain ⟨t, he, v', rfl, hv'⟩ := exec_decodeHost_of_busy a (s := s.withHost { v with agenda := rest }) hb
  have hstep : step (s.withHost v) = exec (decodeHost a) (s.withHost { v with agenda := rest }) :=
    step_of_agenda hv rfl
  exact ⟨v', hstep.trans he, hv'⟩

/-! ## Runs -/

/-- After a host access that is not the last event an event of the core, the input or the sink is to come. -/
theorem filter_notHost_ne_nil {ev : Event} {evs : List Event} (hev : notHost ev = false)
    (hlast : ∀ e ∈ (ev :: evs).getLast?, notHost e = true) : evs.filter notHost ≠ [] := by
  have hnot : notHost ((ev :: evs).getLast (List.cons_ne_nil _ _)) = true := hlast _ (List.getLast_mem_getLast? _)
  have hmem := List.getLast_mem (List.cons_ne_nil ev evs)
  rcases List.mem_cons.1 hmem with heq | hmem
  · rw [heq, hev] at hnot
    exact absurd hnot Bool.false_ne_true
  · exact List.ne_nil_of_mem (List.mem_filter.2 ⟨hmem, hnot⟩)

/-- An interleaving with host accesses that does not end in one runs to the end of the path, whatever the host's part.
Without host accesses the host's part stays. -/
theorem Path.run {s t : State} {evs : List Event} (h : Path s (evs.filter notHost) t)
    (hlast : ∀ ev ∈ evs.getLast?, notHost ev = true) {v : HostView} {rest : List Event}
    (hv : v.agenda = evs ++ rest) :
    ∃ v', Sys2Proof.core.run evs.length (s.withHost v) = .next (t.withHost v') ∧ v'.agenda = rest ∧
      ((∀ ev ∈ evs, notHost ev = true) → v' = { v with agenda := rest }) := by
  induction evs generalizing s v with
  | nil =>
    cases h
    obtain rfl : v.agenda = rest := hv
    exact ⟨v, rfl, rfl, fun _ => rfl⟩
  | cons ev evs ih =>
    have hlast' : ∀ ev ∈ evs.getLast?, notHost ev = true := by
      intro ev' hev'
      exact hlast ev' (List.mem_getLast?_cons hev')
    cases hev : notHost ev with
    | true =>
      rw [List.filter_cons_of_pos hev] at h
      cases h with
      | cons hstep hpath =>
        obtain ⟨v', hrun, hag, hquiet⟩ := ih hpath hlast' (v := { v with agenda := evs ++ rest }) rfl
        refine ⟨v', (core_run_succ _ (hstep.step_eq hv)).trans hrun, hag, fun hall => hquiet fun e he => ?_⟩
        exact hall e (.tail _ he)
    | false =>
      rw [List.filter_cons_of_neg (Bool.not_eq_true _ ▸ hev)] at h
      have hne : evs.filter notHost ≠ [] := filter_notHost_ne_nil hev hlast
      obtain ⟨a, rfl⟩ : ∃ a, ev = .host a := by
        cases ev with
        | host a => exact ⟨a, rfl⟩
        | _ => simp [notHost] at hev
      obtain ⟨v₁, hstep, hv₁⟩ := step_host_of_busy (h.busy hne) hv
      obtain ⟨v', hrun, hag, -⟩ := ih h hlast' hv₁
      refine ⟨v', (core_run_succ _ hstep).trans hrun, hag, fun hall => ?_⟩
      simpa [hev] using hall (.host a) (.head _)

end Sys2Proof.Machine
end

section
/-!
PROOFS. Whole computations (41_stream_accumulator.md R131 to R134, R140 to R143): the state that a computation over a
list of chunks ends in, written out, and the claims about it.
-/

namespace Sys2Proof.Machine

/-! ## The sink log of a computation (R125, R140) -/

/-- The acknowledged write of a chunk. -/
def ackedWrite (c : List Byte) : SinkEntry := { n := answerLength c, bytes := c, answer := some .ack }

/-- What a chunk adds to `SINKLOG` when the sink acknowledges: its write, where the mux issues one. -/
def ackedWrites (copy skip : Bool) (c : List Byte) : List SinkEntry :=
  if copy && !(skip && decide (c.length = 0)) then [ackedWrite c] else []

/-- Every chunk with bytes is written (R140). -/
theorem flatMap_ackedWrites {cs : List (List Byte)} (h : ∀ c ∈ cs, 1 ≤ c.length) (skip : Bool) :
    cs.flatMap (ackedWrites true skip) = cs.map ackedWrite := by
  rw [List.map_eq_flatMap]
  refine List.flatMap_congr fun c hc => ?_
  have hne : c.length ≠ 0 := Nat.one_le_iff_ne_zero.1 (h c hc)
  simp [ackedWrites, hne]

/-- The zero-length write is issued unless it is skipped (R125, R134). -/
theorem ackedWrites_nil (skip : Bool) : ackedWrites true skip [] = if skip then [] else [ackedWrite []] := by
  cases skip <;> rfl

/-! ## The states of a computation -/

/-- The chunk `c` has been read in `s`, and written where the mux writes it: the core's step is next. -/
def received (s : State) (c : List Byte) : State :=
  { s with
    buf := writeBuf s.buf c
    buflen := answerLength c
    phase := .proc
    inlog := s.inlog ++ [.data c]
    sinklog := s.sinklog ++ ackedWrites s.copy s.cfg.skipZeroLenWrite c }

/-- The chunks `cs` have been read and folded in `s`, one after the other. -/
def streamed (s : State) (cs : List (List Byte)) : State :=
  { s with
    acc := fold s.table s.acc cs.flatten
    count := s.count + BitVec.ofNat 64 (totalBytes cs)
    buf := cs.foldl writeBuf s.buf
    buflen := cs.foldl (fun _ c => answerLength c) s.buflen
    phase := .rdwait
    inlog := s.inlog ++ cs.map .data
    sinklog := s.sinklog ++ cs.flatMap (ackedWrites s.copy s.cfg.skipZeroLenWrite) }

/-- The computation over the chunks `cs` that began in `s` has finished (R132). -/
def computed (s : State) (copy : Bool) (cs : List (List Byte)) : State :=
  { s with
    acc := fold crcTable Config.init cs.flatten
    count := BitVec.ofNat 64 (totalBytes cs)
    buf := cs.foldl writeBuf s.buf
    buflen := 0#32
    phase := .idle
    copy := copy
    done := true
    ioerr := false
    errsrc := .inErr
    errinfo := 0#32
    result := crc cs.flatten
    inlog := s.inlog ++ (cs ++ [[]]).map .data
    sinklog := s.sinklog ++ (cs ++ [[]]).flatMap (ackedWrites copy s.cfg.skipZeroLenWrite) }

theorem streamed_nil {s : State} (hp : s.phase = .rdwait) : streamed s [] = s := by
  cases s
  simp_all [streamed, totalBytes]

/-- One chunk has been read and folded. -/
theorem streamed_singleton (s : State) (c : List Byte) : streamed s [c] = { received s c with
    count := s.count + BitVec.ofNat 64 c.length, acc := fold s.table s.acc c, phase := .rdwait } := by
  simp [streamed, received, totalBytes]

theorem streamed_append (s : State) (cs cs' : List (List Byte)) :
    streamed s (cs ++ cs') = streamed (streamed s cs) cs' := by
  simp [streamed, totalBytes, fold_append, BitVec.add_assoc, BitVec.ofNat_add]

/-! ## The path of a computation -/

/-- The sink's acknowledgement completes the write that the mux issued. -/
theorem acked_issueSinkWrite (s : State) (c : List Byte) :
    { logSinkAnswer .ack (issueSinkWrite c.length (storeChunk c (logInput (.data c) s))) with phase := .proc } =
      { storeChunk c (logInput (.data c) s) with phase := .proc, sinklog := s.sinklog ++ [ackedWrite c] } := by
  have hbytes : sinkWriteData (storeChunk c (logInput (.data c) s)) c.length = c := writeBuf_take ..
  simp only [logSinkAnswer, issueSinkWrite, hbytes, answerLast_append]
  rfl

/-- The input's answer and, where the mux writes the chunk, the sink's acknowledgement (R125 to R127). -/
theorem path_received {s : State} {c : List Byte} (hp : s.phase = .rdwait) (hfit : c.length ≤ s.cfg.bufSize) :
    Path s (.inData c :: ackIfWritten s.copy s.cfg.skipZeroLenWrite c.length) (received s c) := by
  have hread := Advances.rdResp c hp hfit
  unfold received ackedWrites ackIfWritten
  rcases routeChunk_cases c.length (storeChunk c (logInput (.data c) s)) with ⟨he, e⟩ | ⟨he, e⟩
  · have hmux : (s.copy && !(s.cfg.skipZeroLenWrite && decide (c.length = 0))) = true := he
    rw [e] at hread
    have hack := Advances.wrAck (issueSinkWrite_phase (storeChunk c (logInput (.data c) s)) c.length)
    rw [acked_issueSinkWrite] at hack
    rw [if_pos hmux, if_pos hmux]
    exact .cons hread hack.path
  · have hmux : (s.copy && !(s.cfg.skipZeroLenWrite && decide (c.length = 0))) = false := he
    rw [e] at hread
    rw [hmux, if_neg Bool.false_ne_true, if_neg Bool.false_ne_true, List.append_nil]
    exact hread.path

/-- The events of a chunk with bytes fold it (R128). -/
theorem path_chunk {s : State} {c : List Byte} (hwf : s.cfg.wf = true) (hp : s.phase = .rdwait)
    (hpos : 1 ≤ c.length) (hfit : c.length ≤ s.cfg.bufSize) :
    Path s (chunkEvents s.copy s.cfg.skipZeroLenWrite c) (streamed s [c]) := by
  have hlt := length_lt_of_fits hwf hfit
  have hlen : (received s c).buflen ≠ 0#32 := by
    rw [received, ne_eq, answerLength_eq_zero_iff hlt]
    exact List.ne_nil_of_length_pos hpos
  have hbytes : chunkBytes (received s c) = c := chunkBytes_storeChunk hlt s
  have hcount : (received s c).buflen.setWidth 64 = BitVec.ofNat 64 c.length := by
    apply BitVec.eq_of_toNat_eq
    simp [received, answerLength]
    omega
  have hchunk := Advances.chunk (s := received s c) rfl hlen
  rw [hbytes, hcount] at hchunk
  rw [streamed_singleton]
  exact (path_received hp hfit).append hchunk.path

/-- The events of the chunks fold them all. -/
theorem path_stream {s : State} {cs : List (List Byte)} (hwf : s.cfg.wf = true) (hp : s.phase = .rdwait)
    (hcs : ChunksFit s.cfg cs) : Path s (streamEvents s.copy s.cfg.skipZeroLenWrite cs) (streamed s cs) := by
  induction cs generalizing s with
  | nil =>
    rw [streamed_nil hp]
    exact .nil s
  | cons c cs ih =>
    obtain ⟨⟨hpos, hfit⟩, hcs⟩ := List.forall_mem_cons.1 hcs
    have hrest := ih (s := streamed s [c]) hwf rfl hcs
    rw [← streamed_append] at hrest
    exact (path_chunk hwf hp hpos hfit).append hrest

/-- End of stream: the answer of no bytes, its write where one is issued, and FINISH (R129). -/
theorem path_end {s : State} (hp : s.phase = .rdwait) :
    Path s (chunkEvents s.copy s.cfg.skipZeroLenWrite [])
      { received s [] with result := ~~~ s.acc, done := true, phase := .idle } :=
  (path_received hp (Nat.zero_le _)).append (Advances.finish (s := received s []) rfl rfl).path

/-- From START the events of a computation lead to its end (R132). -/
theorem path_computation {s : State} (hwf : s.cfg.wf = true) (htable : s.table = crcTable) (copy : Bool)
    {cs : List (List Byte)} (hcs : ChunksFit s.cfg cs) :
    Path (started copy s) (bodyEvents copy s.cfg.skipZeroLenWrite cs) (computed s copy cs) := by
  have hstream : Path (started copy s) (streamEvents copy s.cfg.skipZeroLenWrite cs) (streamed (started copy s) cs) :=
    path_stream hwf rfl hcs
  have hend := path_end (s := streamed (started copy s) cs) rfl
  have hstate : { received (streamed (started copy s) cs) [] with
      result := ~~~ (streamed (started copy s) cs).acc, done := true, phase := .idle } = computed s copy cs := by
    simp [received, streamed, computed, started, htable, writeBuf, answerLength, crc]
  exact hstream.append (hstate ▸ hend)

/-! ## Runs over a whole computation -/

/-- A command word in `IDLE` starts a computation (R123, R124). -/
theorem step_start {s : State} {copy : Bool} {rest : List Event} (hp : s.phase = .idle)
    (hag : s.agenda = startEvent copy :: rest) :
    step s = .next ((started copy s).withHost { s.hostView with agenda := rest }) := by
  have hstart : startCommand copy { s with agenda := rest } = started copy { s with agenda := rest } := by
    rw [startCommand, hp]
  cases copy with
  | false => rw [step_of_agenda hag (i := .compute) rfl, (exec_compute_next _ _).2 hstart]; rfl
  | true => rw [step_of_agenda hag (i := .computeCopy) rfl, (exec_computeCopy_next _ _).2 hstart]; rfl

section
variable {s : State} {copy : Bool} {cs : List (List Byte)} {evs rest : List Event}

/-- Every schedule of a computation that meets no error ends in `computed`, but for the host's part, which stays without
host accesses. -/
theorem run_computation (hinv : BlockInv s) (hshape : Shape s) (hp : s.phase = .idle) (hcs : ChunksFit s.cfg cs)
    (hevs : IsSchedule copy s.cfg.skipZeroLenWrite cs evs) (hag : s.agenda = startEvent copy :: (evs ++ rest)) :
    ∃ v, Sys2Proof.core.run (evs.length + 1) s = .next ((computed s copy cs).withHost v) ∧ v.agenda = rest ∧
      ((∀ ev ∈ evs, notHost ev = true) → v = { s.hostView with agenda := rest }) := by
  obtain ⟨hbody, hlast⟩ := hevs
  have htable : s.table = crcTable := by
    refine hshape.tableReady (Bool.eq_true_of_not_eq_false fun hrdy => ?_)
    rw [hinv.tblrdyIff, hp] at hrdy
    exact nomatch hrdy
  have hpath : Path (started copy s) (evs.filter notHost) (computed s copy cs) :=
    hbody ▸ path_computation hshape.cfgLegal htable copy hcs
  have hlast' : ∀ ev ∈ evs.getLast?, notHost ev = true := by
    rw [hlast]
    rintro _ ⟨⟩
    rfl
  obtain ⟨v, hrun, hv, hquiet⟩ := hpath.run hlast' (v := { s.hostView with agenda := evs ++ rest }) rfl
  exact ⟨v, (core_run_succ _ (step_start hp hag)).trans hrun, hv, hquiet⟩

/-- `run_computation` from a state in which the schedule is put on the agenda. -/
theorem run_computation_of_agenda (hinv : BlockInv s) (hshape : Shape s) (hp : s.phase = .idle)
    (hcs : ChunksFit s.cfg cs) (hevs : IsSchedule copy s.cfg.skipZeroLenWrite cs evs) :
    ∃ v, Sys2Proof.core.run (evs.length + 1) { s with agenda := startEvent copy :: (evs ++ rest) } =
        .next ((computed s copy cs).withHost v) ∧
      ((∀ ev ∈ evs, notHost ev = true) → v = { s.hostView with agenda := rest }) := by
  obtain ⟨v, hrun, -, hquiet⟩ := run_computation (s := { s with agenda := startEvent copy :: (evs ++ rest) })
    (hinv.frame ..) { hshape with } hp hcs hevs rfl
  exact ⟨v, hrun, hquiet⟩

end

/-- Settles O53: the fields of `computed`. -/
theorem successfulComputationResult : Obligations.SuccessfulComputationResult := by
  intro s copy cs evs rest hinv hshape hp hcs hevs hag
  obtain ⟨v, hrun, hv, -⟩ := run_computation hinv hshape hp hcs hevs hag
  exact ⟨_, hrun, rfl, rfl, rfl, rfl, rfl, hv⟩

/-- Settles O56: both runs end in `computed` of the same bytes, and its RESULT and COUNT name nothing else. -/
theorem resultDependsOnTheBytesOnly : Obligations.ResultDependsOnTheBytesOnly := by
  intro s₁ s₂ copy₁ copy₂ cs₁ cs₂ evs₁ evs₂ rest₁ rest₂ hinv₁ hshape₁ hp₁ hcs₁ hevs₁ hag₁ hinv₂ hshape₂ hp₂ hcs₂ hevs₂
    hag₂ hbytes
  obtain ⟨v₁, hrun₁, -⟩ := run_computation hinv₁ hshape₁ hp₁ hcs₁ hevs₁ hag₁
  obtain ⟨v₂, hrun₂, -⟩ := run_computation hinv₂ hshape₂ hp₂ hcs₂ hevs₂ hag₂
  exact ⟨_, _, hrun₁, hrun₂, rfl, rfl, congrArg crc hbytes,
    congrArg (fun bs : List Byte => BitVec.ofNat 64 bs.length) hbytes, rfl, rfl⟩

/-! ## What the sink gets (R133, R134, R140) -/

/-- The writes of a copying computation, the zero-length one last or skipped. -/
def copyWrites (skip : Bool) (cs : List (List Byte)) : List SinkEntry :=
  (if skip then cs else cs ++ [[]]).map ackedWrite

theorem flatMap_ackedWrites_copy {cs : List (List Byte)} (h : ∀ c ∈ cs, 1 ≤ c.length) (skip : Bool) :
    (cs ++ [[]]).flatMap (ackedWrites true skip) = copyWrites skip cs := by
  rw [List.flatMap_append, flatMap_ackedWrites h, List.flatMap_singleton, ackedWrites_nil, copyWrites]
  cases skip <;> simp

theorem copyWrites_bytes (skip : Bool) (cs : List (List Byte)) :
    (copyWrites skip cs).map SinkEntry.bytes = if skip = true then cs else cs ++ [[]] := by
  rw [copyWrites, List.map_map]
  exact List.map_id _

theorem mem_copyWrites {skip : Bool} {cs : List (List Byte)} {e : SinkEntry} (h : e ∈ copyWrites skip cs) :
    ∃ c, (c ∈ cs ∨ c = []) ∧ ackedWrite c = e := by
  obtain ⟨c, hc, rfl⟩ := List.mem_map.1 h
  refine ⟨c, ?_, rfl⟩
  cases skip with
  | false => simpa using hc
  | true => exact .inl hc

/-- Settles O54: the writes of `computed`, chunk by chunk; the empty one adds no byte. -/
theorem copyFidelity : Obligations.CopyFidelity := by
  intro s cs evs rest hinv hshape hp hcs hevs hag
  obtain ⟨v, hrun, -⟩ := run_computation hinv hshape hp hcs hevs hag
  have hwrites := flatMap_ackedWrites_copy (fun c hc => (hcs c hc).1) s.cfg.skipZeroLenWrite
  have hbytes := copyWrites_bytes s.cfg.skipZeroLenWrite cs
  refine ⟨_, copyWrites s.cfg.skipZeroLenWrite cs, hrun, rfl, rfl, rfl, congrArg (s.sinklog ++ ·) hwrites, hbytes,
    fun e he => ?_, ?_⟩
  · obtain ⟨c, hc, rfl⟩ := mem_copyWrites he
    have hfit : c.length ≤ s.cfg.bufSize := by
      rcases hc with hc | rfl
      · exact (hcs c hc).2
      · exact Nat.zero_le _
    exact ⟨answerLength_toNat c (length_lt_of_fits hshape.cfgLegal hfit), rfl⟩
  · rw [hbytes]
    split
    · rfl
    · simp

/-- Settles O55: O53's computation over no chunks; the sink log gets the write of the empty answer. -/
theorem emptyStream : Obligations.EmptyStream := by
  intro s copy evs rest hinv hshape hp hevs hag
  obtain ⟨v, hrun, -⟩ := run_computation hinv hshape hp (List.forall_mem_nil _) hevs hag
  have hcrc : crc [] = 0x00000000#32 := by decide
  refine ⟨_, hrun, rfl, rfl, hcrc, rfl, ?_⟩
  rintro ⟨rfl, hskip⟩
  have hwrites := flatMap_ackedWrites_copy (cs := []) (List.forall_mem_nil _) s.cfg.skipZeroLenWrite
  rw [hskip] at hwrites
  exact congrArg (s.sinklog ++ ·) (hskip ▸ hwrites)

/-! ## With and without the sink (R131) -/

/-- The events of a chunk are those of the core, the input and the sink. -/
theorem notHost_of_mem_chunkEvents {copy skip : Bool} {c : List Byte} {ev : Event}
    (h : ev ∈ chunkEvents copy skip c) : notHost ev = true := by
  rw [chunkEvents, List.mem_cons, List.mem_append, List.mem_singleton, ackIfWritten] at h
  rcases h with rfl | h | rfl
  · rfl
  · split at h
    · rw [List.mem_singleton.1 h]; rfl
    · exact absurd h List.not_mem_nil
  · rfl

/-- The events of a computation are those of the core, the input and the sink. -/
theorem notHost_of_mem_bodyEvents {copy skip : Bool} {cs : List (List Byte)} {ev : Event}
    (h : ev ∈ bodyEvents copy skip cs) : notHost ev = true := by
  rw [bodyEvents, streamEvents, List.mem_append, List.mem_flatten] at h
  rcases h with ⟨evs, hevs, h⟩ | h
  · obtain ⟨c, -, rfl⟩ := List.mem_map.1 hevs
    exact notHost_of_mem_chunkEvents h
  · exact notHost_of_mem_chunkEvents h

/-- Without host accesses the events of a computation are a schedule of it. -/
theorem isSchedule_bodyEvents (copy skip : Bool) (cs : List (List Byte)) :
    IsSchedule copy skip cs (bodyEvents copy skip cs) := by
  refine ⟨List.filter_eq_self.2 fun _ => notHost_of_mem_bodyEvents, ?_⟩
  rw [bodyEvents, chunkEvents, ← List.cons_append, ← List.append_assoc, List.getLast?_concat]

/-- Settles O57: `computed` depends on the command in `COPY` and `SINKLOG` only. -/
theorem computeIsComputeCopyWithoutSink : Obligations.ComputeIsComputeCopyWithoutSink := by
  constructor
  · intro s cs rest hinv hshape hp hcs
    obtain ⟨v, hrun, hv⟩ := run_computation_of_agenda (rest := rest) hinv hshape hp hcs
      (isSchedule_bodyEvents false _ cs)
    obtain ⟨v', hrun', hv'⟩ := run_computation_of_agenda (rest := rest) hinv hshape hp hcs
      (isSchedule_bodyEvents true _ cs)
    have hsame : v' = v := by
      rw [hv fun _ => notHost_of_mem_bodyEvents, hv' fun _ => notHost_of_mem_bodyEvents]
    refine ⟨_, _, hrun, hrun', rfl, rfl, rfl, rfl, ?_⟩
    rw [hsame]
    rfl
  · intro s cs evs evs' rest hinv hshape hp hcs hevs hevs'
    obtain ⟨v, hrun, -⟩ := run_computation_of_agenda (rest := rest) hinv hshape hp hcs hevs
    obtain ⟨v', hrun', -⟩ := run_computation_of_agenda (rest := rest) hinv hshape hp hcs hevs'
    exact ⟨_, _, hrun, hrun', rfl, rfl, rfl, rfl, rfl, rfl⟩

end Sys2Proof.Machine
end

section
/-!
PROOFS. 42_host_interface.md R161 to R167: what a host write can do, the fields of `STATUS`, and the reads of the
registers and of the table.
-/

namespace Sys2Proof.Machine

/-! ## Host writes (R167) -/

/-- The cause of R86 for a write that is no legal command in `IDLE`. -/
def writeCause (a : Addr) (w : Word) (s : State) : PCause :=
  if a.extractLsb' 0 2 ≠ 0#2 then .busMisaligned
  else if ¬ (a.toNat ≤ 0x014 ∨ (0x400 ≤ a.toNat ∧ a.toNat ≤ 0x7FC)) then .busUnmapped
  else if a ≠ 0x000#12 then .busRoWrite
  else if w ≠ 0x00000001#32 ∧ w ≠ 0x00000011#32 then .cmdIllegal
  else if s.phase = .tblgen then .cmdTblgen
  else .cmdBusy

/-- Away from `CMD` the address alone decides the cause (R86 cases 1 to 3). -/
theorem busCause_write_of_ne_cmd {a : Addr} (ha : a ≠ 0x000#12) (w : Word) (s : State) :
    busCause (.write a w) = some (writeCause a w s) := by
  simp only [busCause_eq, HostAccess.addr, writeCause, if_pos ha, apply_ite some]

/-- At `CMD` the word and the phase decide the cause (R86 cases 7a to 7c). -/
theorem writeCause_cmd (w : Word) (s : State) : writeCause 0x000#12 w s =
    if w ≠ 0x00000001#32 ∧ w ≠ 0x00000011#32 then .cmdIllegal
    else if s.phase = .tblgen then .cmdTblgen
    else .cmdBusy := rfl

/-- A legal command word outside `IDLE` is rejected by the phase (R86 cases 7b and 7c). -/
theorem startCommand_of_not_idle {s : State} (h : s.phase ≠ .idle) (copy : Bool) :
    startCommand copy s = raiseProtocolError (if s.phase = .tblgen then .cmdTblgen else .cmdBusy) s := by
  rw [startCommand_eq_ite, if_pos h, apply_ite (raiseProtocolError · s)]

/-- The whole effect of a write that is no legal command in `IDLE`. -/
theorem exec_decodeHost_write_rejected {a : Addr} {w : Word} {s : State}
    (h : ¬ (a = 0x000#12 ∧ s.phase = .idle ∧ (w = 0x00000001#32 ∨ w = 0x00000011#32))) :
    exec (decodeHost (.write a w)) s = .next (raiseProtocolError (writeCause a w s) s) := by
  by_cases ha : a = 0x000#12
  · subst ha
    by_cases hw : w = 0x00000001#32 ∨ w = 0x00000011#32
    · have hstart := startCommand_of_not_idle fun hidle => h ⟨rfl, hidle, hw⟩
      rcases hw with rfl | rfl
      · exact (exec_compute_next ..).2 (hstart false)
      · exact (exec_computeCopy_next ..).2 (hstart true)
    · have hill := not_or.1 hw
      have hlegal := (commandLegal_eq_false_iff w).2 hill
      rw [writeCause_cmd, if_pos hill, decodeHost_write_cmd, hlegal]
      exact (exec_cmdIllegal_next ..).2 ⟨hlegal, rfl⟩
  · exact exec_decodeHost_of_busCause_some s (busCause_write_of_ne_cmd ha w s)

/-- Settles O30: a legal command word in `IDLE` decodes to its command; every other write is rejected. -/
theorem onlyCommandsInIdleWrite : Obligations.OnlyCommandsInIdleWrite := by
  intro a w s
  by_cases h : a = 0x000#12 ∧ s.phase = .idle ∧ (w = 0x00000001#32 ∨ w = 0x00000011#32)
  · obtain ⟨rfl, hidle, rfl | rfl⟩ := h
    · exact ⟨_, rfl, .inl ⟨rfl, hidle, .inl ⟨rfl, rfl⟩⟩⟩
    · exact ⟨_, rfl, .inl ⟨rfl, hidle, .inr ⟨rfl, rfl⟩⟩⟩
  · exact ⟨_, exec_decodeHost_write_rejected h, .inr ⟨h, rfl⟩⟩

/-- A write to a mapped address that is not `CMD`'s is the third case of R86. -/
theorem busCause_write_readOnly {a : Addr} (haligned : a.toNat % 4 = 0)
    (hmapped : a.toNat ≤ 0x014 ∨ (0x400 ≤ a.toNat ∧ a.toNat ≤ 0x7FC)) (hne : a ≠ 0x000#12) (w : Word) :
    busCause (.write a w) = some .busRoWrite := by
  rw [busCause_write, if_neg (not_not.2 haligned), if_neg (not_not.2 hmapped), if_pos hne]

/-! ## The fields of `STATUS` (R161) -/

/-- Bit `i - k` of a concatenation whose low field `y` stands at bit `k` of a register. -/
theorem getLsbD_append_sub {v w : Nat} [NeZero w] (x : BitVec v) (y : BitVec w) (i k : Nat) :
    (x ++ y).getLsbD (i - k) = if i < k + w then y.getLsbD (i - k) else x.getLsbD (i - (k + w)) := by
  have hw := NeZero.pos w
  simp only [BitVec.getLsbD_append, Nat.sub_sub, show i - k < w ↔ i < k + w by omega]

/-- `STATUS` bit by bit, least significant field first. -/
theorem statusWord_getLsbD (s : State) {i : Nat} (hi : i < 32) : (statusWord s).getLsbD i =
    if i < 1 then (BitVec.ofBool (busy s)).getLsbD i
    else if i < 2 then (BitVec.ofBool s.done).getLsbD (i - 1)
    else if i < 3 then (BitVec.ofBool s.ioerr).getLsbD (i - 2)
    else if i < 5 then (errSrcCode s.errsrc).getLsbD (i - 3)
    else if i < 6 then (BitVec.ofBool s.perr).getLsbD (i - 5)
    else if i < 7 then (BitVec.ofBool s.tblrdy).getLsbD (i - 6)
    else if i < 8 then (BitVec.ofBool s.copy).getLsbD (i - 7)
    else if i < 11 then (phaseCode s.phase).getLsbD (i - 8)
    else if i < 12 then (0#1).getLsbD (i - 11)
    else (pcauseCode s.pcause).getLsbD (i - 12) := by
  rw [statusWord, BitVec.getLsbD_setWidth, decide_eq_true hi, Bool.true_and, ← Nat.sub_zero i, statusFields]
  repeat rw [getLsbD_append_sub]
  rfl

/-- A slice of a register is `f` where its bits are those of `f`. -/
theorem extractLsb'_eq_of_getLsbD {w k n : Nat} {v : BitVec w} {f : BitVec n}
    (h : ∀ i < n, v.getLsbD (k + i) = f.getLsbD i) : v.extractLsb' k n = f := by
  apply BitVec.eq_of_getLsbD_eq
  intro i hi
  rw [BitVec.getLsbD_extractLsb', decide_eq_true hi, Bool.true_and, h i hi]

/-- The one-bit fields of `STATUS`, and its reserved bit 11. -/
theorem statusWord_flags (s : State) :
    (statusWord s).getLsbD 0 = busy s ∧ (statusWord s).getLsbD 1 = s.done ∧ (statusWord s).getLsbD 2 = s.ioerr ∧
    (statusWord s).getLsbD 5 = s.perr ∧ (statusWord s).getLsbD 6 = s.tblrdy ∧ (statusWord s).getLsbD 7 = s.copy ∧
    (statusWord s).getLsbD 11 = false := by
  simp [-BitVec.getLsbD_eq_getElem, statusWord_getLsbD]

/-- The coded fields of `STATUS`. -/
theorem statusWord_codes (s : State) :
    (statusWord s).extractLsb' 3 2 = errSrcCode s.errsrc ∧ (statusWord s).extractLsb' 8 3 = phaseCode s.phase ∧
    (statusWord s).extractLsb' 12 4 = pcauseCode s.pcause := by
  refine ⟨?_, ?_, ?_⟩ <;> refine extractLsb'_eq_of_getLsbD fun i hi => ?_
  all_goals simp (disch := omega) only [statusWord_getLsbD, if_pos, if_neg, Nat.add_sub_cancel_left]

/-- Bits 31:16 of `STATUS` read 0. -/
theorem statusWord_upper (s : State) : (statusWord s).extractLsb' 16 16 = 0#16 := by
  refine extractLsb'_eq_of_getLsbD fun i hi => ?_
  rw [statusWord, BitVec.getLsbD_setWidth, BitVec.getLsbD_of_ge _ _ (by omega), Bool.and_false, BitVec.getLsbD_zero]

/-- `BUSY` as a test of `PHASE` (10_state.md R23). -/
theorem busy_eq_decide (s : State) :
    busy s = decide (s.phase = .rdwait ∨ s.phase = .wrwait ∨ s.phase = .proc) := by
  rw [Bool.eq_iff_iff, busy_eq_true_iff, decide_eq_true_iff]

/-- Settles O25: the fields of `STATUS` by their positions. -/
theorem statusReadShowsEveryField : Obligations.StatusReadShowsEveryField := by
  refine ⟨rfl, fun s w => ?_, fun s => ⟨statusWord s, (exec_rdStatus_next ..).2 rfl, ?_⟩, rfl, rfl, rfl⟩
  · exact exec_decodeHost_of_busCause_some s (busCause_write_readOnly (by decide) (by decide) (by decide) w)
  · obtain ⟨hbusy, hdone, hioerr, hperr, htblrdy, hcopy, hreserved⟩ := statusWord_flags s
    obtain ⟨herrsrc, hphase, hpcause⟩ := statusWord_codes s
    exact ⟨hbusy.trans (busy_eq_decide s), hdone, hioerr, herrsrc, hperr, htblrdy, hcopy, hphase, hreserved, hpcause,
      statusWord_upper s⟩

/-! ## The plain reads (R162 to R165) -/

/-- Settles O26: each read returns its register, and the counter is cut at bit 32. -/
theorem plainRegisterReads : Obligations.PlainRegisterReads := by
  refine ⟨fun s => ⟨?_, ?_, ?_, ?_⟩, rfl, rfl, rfl, rfl, fun c => BitVec.extractLsb'_append_extractLsb'⟩
  · exact (exec_rdResult_next ..).2 rfl
  · exact (exec_rdCountLo_next ..).2 rfl
  · exact (exec_rdCountHi_next ..).2 rfl
  · exact (exec_rdErrinfo_next ..).2 rfl

/-! ## The `TABLE` window (R166) -/

section
variable {i : Byte} {a : Addr}

/-- The address of `TABLE[i]` is aligned, mapped and not `CMD`'s. -/
theorem window_address (ha : a.toNat = 0x400 + 4 * i.toNat) :
    a.toNat % 4 = 0 ∧ (a.toNat ≤ 0x014 ∨ (0x400 ≤ a.toNat ∧ a.toNat ≤ 0x7FC)) ∧ a ≠ 0x000#12 := by
  have hi := i.isLt
  refine ⟨by omega, by omega, fun hcmd => ?_⟩
  rw [hcmd, BitVec.toNat_ofNat] at ha
  omega

/-- A read of the address `0x400 + 4·i` is a read of entry `i`. -/
theorem decodeHost_read_window (ha : a.toNat = 0x400 + 4 * i.toNat) : decodeHost (.read a) = .rdTable i := by
  obtain ⟨haligned, hmapped, hne⟩ := window_address ha
  obtain ⟨hwindow, hindex, -⟩ := mapped_read_address a haligned hmapped hne
  have hcause : busCause (.read a) = none := by
    rw [busCause_read, if_neg (not_not.2 haligned), if_neg (not_not.2 hmapped), if_neg hne]
  have hi : BitVec.ofNat 8 ((a.toNat - 0x400) / 4) = i := by
    rw [ha, Nat.add_sub_cancel_left, Nat.mul_div_cancel_left _ (by decide), BitVec.ofNat_toNat, BitVec.setWidth_eq]
  rw [decodeHost_read_table hcause (by rw [hwindow, decide_eq_true]; omega), hindex (by omega), hi]

end

/-- Settles O27: the read by `TBLRDY`, the address by its number. -/
theorem tableReadReturnsTheEntry : Obligations.TableReadReturnsTheEntry := by
  refine ⟨fun s i hrdy => ?_, fun s i hrdy => ?_, fun i a ha => decodeHost_read_window ha, fun s i a w ha => ?_⟩
  · exact (exec_rdTable_next ..).2 (.inl ⟨hrdy, rfl⟩)
  · exact (exec_rdTable_next ..).2 (.inr ⟨hrdy, rfl⟩)
  · obtain ⟨haligned, hmapped, hne⟩ := window_address ha
    exact exec_decodeHost_of_busCause_some s (busCause_write_readOnly haligned hmapped hne w)

end Sys2Proof.Machine
end

section
/-!
PROOFS. 60_exceptions.md R182 to R188: the three I/O errors and what they leave of a computation, the rejected accesses
and the protocol error flag.
-/

namespace Sys2Proof.Machine

/-! ## I/O errors (R183 to R185) -/

/-- Settles O21: RD_ERR's rule, with the input's error word. -/
theorem inputErrorAborts : Obligations.InputErrorAborts := by
  refine ⟨fun _ _ => rfl, fun s e hp => ?_, fun s e hp => ?_⟩
  · exact ⟨_, (exec_rdErr_next ..).2 ⟨hp, rfl⟩, rfl⟩
  · exact (whenEnabled_eq_refused ..).2 ⟨decide_eq_false hp, rfl⟩

/-- Settles O22: the decoder and RD_LENERR both go by the number of bytes, which fits the error word. -/
theorem inputLengthViolationAborts : Obligations.InputLengthViolationAborts := by
  refine ⟨fun c b hlong hwide => ?_, fun s b hp hlong hwide => ?_, fun s b hnot => ?_⟩
  · exact (if_neg hlong.not_ge).trans (if_pos hwide)
  · exact ⟨_, (exec_rdLenerr_next ..).2 ⟨⟨⟨hp, hlong⟩, hwide⟩, rfl⟩, answerLength_toNat b hwide, rfl⟩
  · refine (whenEnabled_eq_refused ..).2 ⟨?_, rfl⟩
    rcases hnot with hp | hfit
    · simp [hp]
    · simp [hfit.not_gt]

/-- Settles O23: WR_ERR's rule, with the sink's error word. -/
theorem sinkErrorAborts : Obligations.SinkErrorAborts := by
  refine ⟨fun _ _ => rfl, fun s e hp => ?_, fun s e hp => ?_⟩
  · exact ⟨_, (exec_wrErr_next ..).2 ⟨hp, rfl⟩, rfl⟩
  · exact (whenEnabled_eq_refused ..).2 ⟨decide_eq_false hp, rfl⟩

/-! ## What an I/O error leaves of a computation (R188) -/

section
variable {base : List InAnswer} {cs : List (List Byte)} {s : State}

/-- In `RDWAIT` every data answer so far is folded. -/
theorem Tracks.folded_of_rdwait (h : Tracks base cs s) (hp : s.phase = .rdwait) : Folded cs s := by
  obtain ⟨-, hphase⟩ := h
  rw [hp] at hphase
  exact hphase

/-- In `WRWAIT` the last data answer is in `BUF`, and those before it are folded. -/
theorem Tracks.folded_of_wrwait (h : Tracks base cs s) (hp : s.phase = .wrwait) :
    cs.getLast? = some (chunkBytes s) ∧ Folded cs.dropLast s := by
  obtain ⟨-, hphase⟩ := h
  rw [hp] at hphase
  obtain ⟨before, rfl, hfolded⟩ := hphase
  rw [List.getLast?_concat, List.dropLast_concat]
  exact ⟨rfl, hfolded⟩

end

/-- Settles O24: an I/O error leaves ACC, COUNT and RESULT, so what was folded in the phase it came in is folded after
it. -/
theorem countAfterAnIoError : Obligations.CountAfterAnIoError := by
  refine ⟨fun base cs s t e htracks h => ?_, fun base cs s t b htracks h => ?_, fun base cs s t e htracks h => ?_⟩
  · obtain ⟨hp, rfl⟩ := (exec_rdErr_next ..).1 h
    obtain ⟨hacc, hcount⟩ := htracks.folded_of_rdwait hp
    exact ⟨hcount, hacc, rfl⟩
  · obtain ⟨⟨⟨hp, -⟩, -⟩, rfl⟩ := (exec_rdLenerr_next ..).1 h
    obtain ⟨hacc, hcount⟩ := htracks.folded_of_rdwait hp
    exact ⟨hcount, hacc, rfl⟩
  · obtain ⟨hp, rfl⟩ := (exec_wrErr_next ..).1 h
    obtain ⟨hlast, hacc, hcount⟩ := htracks.folded_of_wrwait hp
    exact ⟨hcount, hacc, hlast, rfl⟩

/-! ## Rejected accesses (R186) -/

/-- What the catch-all row's note calls illegal has one of the causes of R86 cases 1 to 4: an aligned and mapped address
is illegal by its direction alone. -/
theorem exists_busCause_of_illegal {a : HostAccess} (h : a.illegal = true) : ∃ c, busCause a = some c := by
  cases a with
  | read addr =>
    simp only [HostAccess.illegal, Bool.or_eq_true, Bool.and_eq_true, decide_eq_true_eq] at h
    rw [busCause_read]
    split_ifs with hmisaligned hmapped hcmd
    · exact ⟨_, rfl⟩
    · exact ⟨_, rfl⟩
    · have hne : addr.toNat ≠ 0 := fun hzero => hcmd (BitVec.eq_of_toNat_eq hzero)
      omega
    · exact ⟨_, rfl⟩
  | write addr w =>
    simp only [HostAccess.illegal, Bool.or_eq_true, decide_eq_true_eq] at h
    rw [busCause_write]
    split_ifs with hmisaligned hmapped hcmd
    · exact ⟨_, rfl⟩
    · exact ⟨_, rfl⟩
    · have hzero : addr.toNat = 0 := congrArg BitVec.toNat (not_not.1 hcmd)
      omega
    · exact ⟨_, rfl⟩

/-- Settles O28: `rejectAccess` by direction, and the causes of the operands of the two catch-all rows. -/
theorem illegalAccessesAreRejected : Obligations.IllegalAccessesAreRejected := by
  refine ⟨fun _ _ _ => rfl, fun _ _ _ _ => rfl, fun s w hc hcc => ?_, fun s a h => ?_, fun s a w h => ?_⟩
  · exact (exec_cmdIllegal_next ..).2 ⟨(commandLegal_eq_false_iff w).2 ⟨hc, hcc⟩, rfl⟩
  · obtain ⟨c, hcause⟩ := exists_busCause_of_illegal h
    exact ⟨c, hcause, (exec_busIllegal_next ..).2 ⟨c, hcause, rfl⟩⟩
  · obtain ⟨c, hcause⟩ := exists_busCause_of_illegal h
    exact ⟨c, hcause, (exec_busIllegal_next ..).2 ⟨c, hcause, rfl⟩⟩

/-! ## The protocol error flag (R187) -/

@[simp] theorem routeChunk_perr (n : Nat) (s : State) : (routeChunk n s).perr = s.perr := by rw [routeChunk_frame]
@[simp] theorem routeChunk_pcause (n : Nat) (s : State) : (routeChunk n s).pcause = s.pcause := by rw [routeChunk_frame]

/-- An instruction but RESET leaves `PERR` and `PCAUSE`, or raises a protocol error, which records its cause if it is
the first. -/
theorem exec_perr_pcause {i : Instr} {s t : State} (h : exec i s = .next t) (hr : i ≠ .reset) :
    (t.perr = s.perr ∧ t.pcause = s.pcause) ∨
    (t.perr = true ∧ ∃ c, t.pcause = if s.perr = true then s.pcause else c) := by
  rcases exec_cases h with ⟨_, rfl⟩ | ⟨_, c, rfl⟩ | ⟨_, rfl⟩ | ⟨-, -, _, rfl⟩ | ⟨-, -, rfl⟩ | ⟨_, -, -, -, rfl⟩ |
    ⟨_, -, -, rfl⟩ | ⟨_, -, -, rfl⟩ | ⟨-, -, rfl⟩ | ⟨_, -, -, rfl⟩ | ⟨-, -, -, rfl⟩ | ⟨-, -, -, rfl⟩ | ⟨rfl, -⟩
  case inr.inl => exact .inr ⟨rfl, c, rfl⟩
  all_goals simp at hr ⊢

/-- Settles O31: with PERR set a further protocol error keeps the cause, and one that is raised leaves PERR set. -/
theorem protocolErrorsAreSticky : Obligations.ProtocolErrorsAreSticky := by
  refine ⟨fun i s t h hr hperr => ?_, fun i s t h hr hperr ht => ?_, fun s t h => ?_⟩
  · rcases exec_perr_pcause h hr with ⟨hkept, hcause⟩ | ⟨hraised, c, hcause⟩
    · exact ⟨hkept.trans hperr, hcause⟩
    · exact ⟨hraised, hcause.trans (if_pos hperr)⟩
  · rcases exec_perr_pcause h hr with ⟨-, hcause⟩ | ⟨hraised, -⟩
    · exact hcause
    · exact absurd (hraised.symm.trans ht) (by decide)
  · obtain rfl := (exec_reset_next ..).1 h
    exact ⟨rfl, rfl⟩

end Sys2Proof.Machine
end

section
/-!
PROOFS. 70_reset_and_hazards.md R210 and R212: the selectors and the values of RESET, and the port silence of a block
that does not compute.
-/

namespace Sys2Proof.Machine

/-! ## The selectors of RESET (30_encoding.md R87) -/

/-- A selector with `EV = 5` is RESET's, whatever its phase bits: every other row of R87 fixes a different `EV`. -/
theorem decode_reset_of_mask (c : DecodeCtx) {sel : Sel} (h : sel &&& 0b111000#6 = 0b101000#6) :
    decode c (.fsm sel .empty) = .instr .reset := by
  have hother (row : Sel) (hrow : row &&& 0b111000#6 ≠ 0b101000#6) : sel ≠ row := fun heq => hrow (heq ▸ h)
  simp [decode, decodeFsm, decodeBare, hother, h]

/-! ## The values of RESET (R210) -/

/-- `PHASE` after reset is `TBLGEN` or `IDLE`, so the block does not compute (R210, R211). -/
@[simp] theorem busy_resetState (s : State) : busy (resetState s) = false := by
  rw [busy_eq_false_iff, resetState_phase]
  cases s.cfg.tableImpl
  case generate => exact .inr rfl
  case rom => exact .inl rfl

/-- `STATUS` after reset (10_state.md R35): `PHASE = TBLGEN` with GENERATE, `TBLRDY` alone with ROM. -/
theorem statusWord_resetState (s : State) :
    statusWord (resetState s) = if s.cfg.tableImpl = .generate then 0x00000100#32 else 0x00000040#32 := by
  simp only [statusWord, statusFields, busy_resetState, resetState_pcause, resetState_phase, resetState_copy,
    resetState_tblrdy, resetState_perr, resetState_errsrc, resetState_ioerr, resetState_done]
  cases s.cfg.tableImpl <;> rfl

/-! ## A block that does not compute (R212) -/

section
variable {s : State}

/-- A port transaction is outstanding in `RDWAIT` and `WRWAIT` only, where `BUSY = 1` (10_state.md R22, R23). -/
theorem outstanding_of_not_busy (h : busy s = false) : outstanding s = none := by
  rcases (busy_eq_false_iff s).1 h with hp | hp <;> rw [outstanding, hp]

/-- An agent's event that selects no step is refused; only INTERNAL can stand for the lack of an event. -/
theorem step_of_reject {r : Reject} (hev : nextEvent s ≠ .internal)
    (hd : decode (decodeCtx s) (transactionOf (nextEvent s) s.phase) = .reject r) :
    step s = .refused (.notAdmitted r) := by
  have hcoming : s.upcoming.isEmpty = false := by
    cases hup : s.upcoming with
    | nil => exact absurd (by rw [nextEvent, hup]; rfl) hev
    | cons ev rest => rfl
  simp [step, hd, hcoming]

/-- A block that does not compute waits for no agent, so an answer that comes next is refused (R212). -/
theorem step_refuses_answer (h : busy s = false)
    (hev : (∃ b, nextEvent s = .inData b) ∨ (∃ e, nextEvent s = .inErr e) ∨ nextEvent s = .sinkAck ∨
      ∃ e, nextEvent s = .sinkErr e) :
    ∃ r, step s = .refused (.notAdmitted r) := by
  have hrd : s.phase ≠ .rdwait := fun hp => by simp [busy, hp] at h
  have hwr : s.phase ≠ .wrwait := fun hp => by simp [busy, hp] at h
  rcases hev with ⟨b, hev⟩ | ⟨e, hev⟩ | hev | ⟨e, hev⟩
  · exact ⟨_, step_of_reject (by simp [hev]) (by rw [hev, decode_inData, if_neg hrd])⟩
  · exact ⟨_, step_of_reject (by simp [hev]) (by rw [hev, decode_inErr, if_neg hrd])⟩
  · exact ⟨_, step_of_reject (by simp [hev]) (by rw [hev, decode_sinkAck, if_neg hwr])⟩
  · exact ⟨_, step_of_reject (by simp [hev]) (by rw [hev, decode_sinkErr, if_neg hwr])⟩

/-- Only a command makes the block compute: the steps of a computation are enabled in its phases only, TBL_GEN leads to
`IDLE`, and RESET leaves the block idle or in `TBLGEN`. -/
theorem exec_keeps_not_busy {i : Instr} {t : State} (he : exec i s = .next t) (h : busy s = false)
    (hc : i ≠ .compute) (hcc : i ≠ .computeCopy) : busy t = false := by
  rcases exec_cases he with ⟨_, rfl⟩ | ⟨_, _, rfl⟩ | ⟨_, rfl⟩ | ⟨hcmd, -⟩ | ⟨-, -, rfl⟩ | ⟨_, -, hp, -⟩ |
    ⟨_, -, hp, -⟩ | ⟨_, -, hp, -⟩ | ⟨-, hp, -⟩ | ⟨_, -, hp, -⟩ | ⟨-, hp, -⟩ | ⟨-, hp, -⟩ | ⟨-, rfl⟩
  -- reads, rejected accesses and the datapath rows leave `PHASE`
  iterate 3 exact h
  · exact absurd hcmd (not_or.2 ⟨hc, hcc⟩)
  · rfl
  iterate 7 simp [busy, hp] at h
  · exact busy_resetState s

end

/-- Settles O50: nothing is outstanding while `BUSY = 0`, no answer selects a step there, and only a command ends it. -/
theorem noAnswerAndNoRequestAfterReset : Obligations.NoAnswerAndNoRequestAfterReset := by
  refine ⟨fun s t h => ?_, fun s hs hev => step_refuses_answer hs hev, fun i s t he hs hc hcc => ?_⟩
  · obtain rfl := (exec_reset_next s t).1 h
    exact busy_resetState s
  · have ht : busy t = false := exec_keeps_not_busy he hs hc hcc
    exact ⟨ht, outstanding_of_not_busy ht⟩

/-- Settles O38: the eight selectors have RESET's `EV`, and `resetState` holds the values of R210. -/
theorem resetRestoresEveryElement : Obligations.ResetRestoresEveryElement := by
  refine ⟨fun c p => decode_reset_of_mask c (by revert p; decide), fun s => ⟨resetState s,
    (exec_reset_next s _).2 rfl, rfl, rfl, rfl, rfl, rfl, rfl, rfl, rfl, rfl, rfl, fun hgen => ?_, fun hrom => ?_,
    resetState_buf_length s, outstanding_of_not_busy (busy_resetState s)⟩⟩
  · rw [statusWord_resetState, resetState_phase, resetState_tblrdy, hgen]
    exact ⟨rfl, rfl, rfl⟩
  · rw [statusWord_resetState, resetState_phase, resetState_tblrdy, resetState_table_of_rom hrom, hrom]
    exact ⟨rfl, rfl, rfl, tableAt_crcTable⟩

end Sys2Proof.Machine
end

section
/-!
PROOFS. 10_state.md R21, R27, R34, R40 and 70_reset_and_hazards.md R213: the values of power-up, and what every step
keeps of the buffer's size, the table and the sink log.
-/

namespace Sys2Proof.Machine

/-! ## What an update keeps of the shape (R27, R34) -/

section
variable {s t : State}

/-- `Shape` speaks of the parameters, of `BUF` and of the table only. -/
theorem Shape.of_eq (h : Shape s) (hcfg : t.cfg = s.cfg) (hbuf : t.buf = s.buf) (htable : t.table = s.table)
    (hrdy : t.tblrdy = s.tblrdy) : Shape t where
  cfgLegal := by rw [hcfg, h.cfgLegal]
  bufSize := by rw [hcfg, hbuf, h.bufSize]
  tableReady := by rw [hrdy, htable]; exact h.tableReady

/-- A chunk that fits overwrites the first bytes of `BUF` (41_stream_accumulator.md R126). -/
theorem Shape.storeChunk (h : Shape s) {b : List Byte} (hfit : b.length ≤ s.cfg.bufSize) :
    Shape (storeChunk b s) :=
  { h with bufSize := (writeBuf_length s.buf b (h.bufSize ▸ hfit)).trans h.bufSize }

/-- The reset values: `BUF` is drawn with its size, and the table is ready with ROM only (R210). -/
theorem Shape.resetState (h : Shape s) : Shape (resetState s) where
  cfgLegal := h.cfgLegal
  bufSize := resetState_buf_length s
  tableReady := by
    rw [resetState_tblrdy, resetState_table]
    cases s.cfg.tableImpl
    case generate => exact fun hrdy => nomatch hrdy
    case rom => exact fun _ => rfl

@[simp] theorem routeChunk_cfg (n : Nat) (s : State) : (routeChunk n s).cfg = s.cfg := by rw [routeChunk_frame]

/-- No step writes the parameters (log entry 1). -/
theorem exec_cfg {i : Instr} (he : exec i s = .next t) : t.cfg = s.cfg := by
  rcases exec_cases he with ⟨_, rfl⟩ | ⟨_, _, rfl⟩ | ⟨_, rfl⟩ | ⟨-, -, _, rfl⟩ | ⟨-, -, rfl⟩ | ⟨_, -, -, -, rfl⟩ |
    ⟨_, -, -, rfl⟩ | ⟨_, -, -, rfl⟩ | ⟨-, -, rfl⟩ | ⟨_, -, -, rfl⟩ | ⟨-, -, -, rfl⟩ | ⟨-, -, -, rfl⟩ | ⟨-, rfl⟩
  all_goals simp

/-- TBL_GEN writes the CRC table, RD_RESP a chunk that fits, RESET the reset values; nothing else writes `BUF` or the
table. -/
theorem exec_keeps_shape {i : Instr} (h : Shape s) (he : exec i s = .next t) : Shape t := by
  rcases exec_cases he with ⟨_, rfl⟩ | ⟨_, _, rfl⟩ | ⟨_, rfl⟩ | ⟨-, -, _, rfl⟩ | ⟨-, -, rfl⟩ | ⟨b, -, -, hfit, rfl⟩ |
    ⟨_, -, -, rfl⟩ | ⟨_, -, -, rfl⟩ | ⟨-, -, rfl⟩ | ⟨_, -, -, rfl⟩ | ⟨-, -, -, rfl⟩ | ⟨-, -, -, rfl⟩ | ⟨-, rfl⟩
  iterate 4 exact h.of_eq rfl rfl rfl rfl
  · exact { h with tableReady := fun _ => rfl }
  · have hlog : Shape (logInput (.data b) s) := h.of_eq rfl rfl rfl rfl
    exact (hlog.storeChunk hfit).of_eq (by simp) (by simp) (by simp) (by simp)
  iterate 6 exact h.of_eq rfl rfl rfl rfl
  · exact h.resetState

end

/-! ## The sink log and `PHASE` (R22, R40) -/

section
variable {s t : State}

/-- The phases in which a chunk is held are phases of a computation (10_state.md R23). -/
theorem not_holding_of_not_busy (h : busy s = false) : ¬ (s.phase = .wrwait ∨ s.phase = .proc) :=
  fun hp => by rw [(busy_eq_true_iff s).2 (.inr hp)] at h; exact nomatch h

/-- Only `WRWAIT` has an outstanding write. -/
theorem sinkLogAgrees_of_ne_wrwait (h : s.phase ≠ .wrwait) : SinkLogAgrees s := fun hp => absurd hp h

/-- `SinkLogAgrees` speaks of the phase, of the chunk and of the sink log only. -/
theorem SinkLogAgrees.of_eq (h : SinkLogAgrees s) (hphase : t.phase = s.phase) (hbuf : t.buf = s.buf)
    (hlen : t.buflen = s.buflen) (hlog : t.sinklog = s.sinklog) : SinkLogAgrees t := by
  rw [SinkLogAgrees, chunkBytes, hphase, hbuf, hlen, hlog]
  exact h

/-- The write that the mux issues for a stored chunk is `SinkWrite(BUFLEN, BUF[0..BUFLEN-1])` (R125). -/
theorem sinkLogAgrees_routeChunk {b : List Byte} (hb : b.length < 2 ^ 32) (s : State) :
    SinkLogAgrees (routeChunk b.length (storeChunk b s)) := by
  rcases routeChunk_cases b.length (storeChunk b s) with ⟨-, e⟩ | ⟨-, e⟩
  · intro _
    have hchunk : chunkBytes (issueSinkWrite b.length (storeChunk b s)) = b := chunkBytes_storeChunk hb s
    have hsent : sinkWriteData (storeChunk b s) b.length = b := writeBuf_take s.buf b
    rw [e, hchunk, issueSinkWrite_sinklog, hsent]
    exact ⟨_, rfl⟩
  · exact sinkLogAgrees_of_ne_wrwait (by simp [e])

/-- RD_RESP alone enters `WRWAIT`, with the write it logs; what stays in `WRWAIT` is a host access or a datapath row. -/
theorem exec_keeps_sinkLogAgrees {i : Instr} (hc : s.cfg.wf = true) (h : SinkLogAgrees s)
    (he : exec i s = .next t) : SinkLogAgrees t := by
  rcases exec_cases he with ⟨_, rfl⟩ | ⟨_, _, rfl⟩ | ⟨_, rfl⟩ | ⟨-, -, _, rfl⟩ | ⟨-, -, rfl⟩ | ⟨b, -, -, hfit, rfl⟩ |
    ⟨_, -, -, rfl⟩ | ⟨_, -, -, rfl⟩ | ⟨-, -, rfl⟩ | ⟨_, -, -, rfl⟩ | ⟨-, -, -, rfl⟩ | ⟨-, -, -, rfl⟩ | ⟨-, rfl⟩
  iterate 3 exact h.of_eq rfl rfl rfl rfl
  iterate 2 exact sinkLogAgrees_of_ne_wrwait (by simp)
  · exact sinkLogAgrees_routeChunk (length_lt_of_fits hc hfit) _
  iterate 6 exact sinkLogAgrees_of_ne_wrwait (by simp)
  · refine sinkLogAgrees_of_ne_wrwait fun hp => ?_
    exact not_holding_of_not_busy (busy_resetState s) (.inl hp)

end

/-- Settles O42: the step's instruction keeps each part, in the state with the event taken off. -/
theorem stepKeepsShapeAndSinkLog : Obligations.StepKeepsShapeAndSinkLog := by
  intro s t hshape hlog hstep
  obtain ⟨i, -, he⟩ := step_next s t hstep
  have hshape' : Shape s.takeEvent := hshape.of_eq rfl rfl rfl rfl
  have hlog' : SinkLogAgrees s.takeEvent := hlog.of_eq rfl rfl rfl rfl
  have hcfg : t.cfg = s.takeEvent.cfg := exec_cfg he
  exact ⟨hcfg, exec_keeps_shape hshape' he, exec_keeps_sinkLogAgrees hshape'.cfgLegal hlog' he⟩

/-! ## Power-up (R213) and the two forms of the table (40_table_generator.md R105) -/

theorem powerUp_default : powerUp Config.default = State.reset := rfl

/-- Power-up is a reset: it leaves `STATUS` as a RESET step does. -/
theorem statusWord_powerUp (c : Config) : statusWord (powerUp c) = statusWord (resetState (powerUp c)) := rfl

/-- Settles O39: the elements with a value are literals of `powerUp`, but for `PHASE`, `TBLRDY` and with them `STATUS`,
which go by the form of the table. -/
theorem powerUpHasTheResetValues : Obligations.PowerUpHasTheResetValues := by
  refine ⟨powerUp_default, rfl, fun c => ⟨rfl, rfl, rfl, rfl, rfl, rfl, rfl, rfl, rfl, rfl, fun hgen => ?_,
    fun hrom => ?_⟩⟩
  · simp [powerUp, hgen, phaseAfterReset, tblrdyAfterReset]
  · rw [statusWord_powerUp, statusWord_resetState]
    simp [powerUp, hrom, phaseAfterReset, tblrdyAfterReset]

/-- The phase after power-up is none of a computation. -/
theorem busy_powerUp (c : Config) : busy (powerUp c) = false := busy_resetState (powerUp c)

/-- Only (e) reads an element that RESET leaves free, and it speaks of the phases of a computation. -/
theorem blockInv_powerUp (c : Config) : BlockInv (powerUp c) :=
  { blockInv_resetState (powerUp c) with
    buflenFits := fun hp => absurd hp (not_holding_of_not_busy (busy_powerUp c)) }

theorem shape_powerUp {c : Config} (hc : c.wf = true) : Shape (powerUp c) where
  cfgLegal := hc
  bufSize := List.length_replicate
  tableReady := by
    change tblrdyAfterReset c.tableImpl = true → (powerUp c).table = crcTable
    cases himpl : c.tableImpl
    case generate => exact fun hrdy => nomatch hrdy
    case rom => exact fun _ => powerUp_table_of_rom himpl

theorem sinkLogAgrees_powerUp (c : Config) : SinkLogAgrees (powerUp c) :=
  sinkLogAgrees_of_ne_wrwait fun hp => not_holding_of_not_busy (busy_powerUp c) (.inl hp)

/-- Settles O40: State.reset is the power-up of the default parameters, which are legal. -/
theorem powerUpMeetsTheInvariants : Obligations.PowerUpMeetsTheInvariants := by
  have hall (c : Config) (hc : c.wf = true) : BlockInv (powerUp c) ∧ Shape (powerUp c) ∧ SinkLogAgrees (powerUp c) :=
    ⟨blockInv_powerUp c, shape_powerUp hc, sinkLogAgrees_powerUp c⟩
  refine ⟨?_, hall⟩
  rw [← powerUp_default]
  exact hall Config.default (by decide)

/-- Settles O43: with GENERATE the reset state is in `TBLGEN`, and TBL_GEN makes up the two elements that differ. -/
theorem generateAndRomAgreeAfterTblGen : Obligations.GenerateAndRomAgreeAfterTblGen :=
  fun _ => ⟨_, _, _, rfl, (exec_tblGen_next ..).2 ⟨rfl, rfl⟩, rfl, rfl⟩

end Sys2Proof.Machine
end

section
/-!
PROOFS. 30_encoding.md R81 to R91: decoder and encoder are inverse to one another, a step runs the decoded event, and
the pseudo-instructions; 20_memory.md R65: the byte lanes of a register.
-/

namespace Sys2Proof.Machine

/-! ## Host accesses (R81 to R86) -/

theorem tableAddr_toNat (i : Byte) : (tableAddr i).toNat = 0x400 + 4 * i.toNat := by
  have hi := i.isLt
  rw [tableAddr, BitVec.toNat_append, BitVec.toNat_append, BitVec.toNat_ofNat, BitVec.toNat_ofNat,
    ← Nat.shiftLeft_add_eq_or_of_lt hi, ← Nat.shiftLeft_add_eq_or_of_lt (by decide), Nat.shiftLeft_eq, Nat.shiftLeft_eq]
  omega

/-- A `CMD` write of a legal word, by the word (R82). -/
theorem decodeHost_write_cmd_of_illegal {w : Word} (h : illegalCommand w = true) :
    decodeHost (.write 0x000#12 w) = .cmdIllegal w := by
  simp only [illegalCommand, Bool.and_eq_true, decide_eq_true_eq] at h
  simp [decodeHost_write_cmd, (commandLegal_eq_false_iff w).2 h]

/-- An access with a cause is one that the note of BUS_ILLEGAL names. -/
theorem illegal_of_busCause {a : HostAccess} {c : PCause} (h : busCause a = some c) : a.illegal = true := by
  cases a with
  | read addr =>
    simp only [HostAccess.illegal, Bool.or_eq_true, Bool.and_eq_true, decide_eq_true_eq]
    rw [busCause_read] at h
    split_ifs at h with hmisaligned hmapped hcmd
    · exact .inl (.inl (.inl hmisaligned))
    · exact .inr (congrArg BitVec.toNat hcmd)
    · omega
  | write addr w =>
    simp only [HostAccess.illegal, Bool.or_eq_true, decide_eq_true_eq]
    rw [busCause_write] at h
    split_ifs at h with hmisaligned hmapped hcmd
    · exact .inl hmisaligned
    · exact .inr fun hzero => hcmd (BitVec.eq_of_toNat_eq hzero)
    · exact .inr fun hzero => hmapped (.inl (hzero ▸ Nat.zero_le _))

/-- The address of an entry's read is the one its index names (R85). -/
theorem tableAddr_tableIndex {a : Addr} (haligned : a.toNat % 4 = 0) (hlow : 0x400 ≤ a.toNat) (hhigh : a.toNat ≤ 0x7FC)
    (hindex : tableIndex a = BitVec.ofNat 8 ((a.toNat - 0x400) / 4)) : tableAddr (tableIndex a) = a := by
  apply BitVec.eq_of_toNat_eq
  rw [tableAddr_toNat, hindex, BitVec.toNat_ofNat]
  omega

/-- What a host access decodes to is well formed, and encodes back to the access: the operands of BUS_ILLEGAL and
CMD_ILLEGAL are the access's own, and every other row has one address and data word. -/
theorem encode_decodeHost (c : DecodeCtx) (a : HostAccess) :
    wellFormed c (decodeHost a) = true ∧ (decodeHost a).encoded = true ∧ encode (decodeHost a) = some (.bus a) := by
  cases hcause : busCause a with
  | some cause =>
    rw [decodeHost_of_busCause_some hcause]
    exact ⟨illegal_of_busCause hcause, rfl, rfl⟩
  | none =>
    cases a with
    | read addr =>
      have hnone := hcause
      rw [busCause_read] at hnone
      split_ifs at hnone with hmisaligned hmapped hcmd
      have haligned : addr.toNat % 4 = 0 := not_not.1 hmisaligned
      obtain ⟨hwindow, hindex, hregister⟩ := mapped_read_address addr haligned hmapped hcmd
      by_cases hlow : 0x400 ≤ addr.toNat
      · have haddr := tableAddr_tableIndex haligned hlow (by omega) (hindex hlow)
        rw [decodeHost_read_table hcause (by rw [hwindow, decide_eq_true hlow]), encode, haddr]
        exact ⟨rfl, rfl, rfl⟩
      · rcases hregister hlow with rfl | rfl | rfl | rfl | rfl <;> exact ⟨rfl, rfl, rfl⟩
    | write addr w =>
      have hcmd : addr = 0x000#12 := by
        by_contra hne
        rw [busCause_write] at hcause
        split_ifs at hcause
      subst hcmd
      rw [decodeHost_write_cmd]
      cases hlegal : commandLegal w with
      | false =>
        obtain ⟨hc, hcc⟩ := (commandLegal_eq_false_iff w).1 hlegal
        exact ⟨by simp [wellFormed, illegalCommand, hc, hcc], rfl, rfl⟩
      | true =>
        obtain ⟨-, rfl⟩ | ⟨-, rfl⟩ := commandLegal_cases w hlegal
        · exact ⟨rfl, rfl, rfl⟩
        · exact ⟨rfl, rfl, rfl⟩

/-! ## Step selectors (R87) -/

/-- A step without operands decodes to the row of its selector, and admits no operands. -/
theorem decodeBare_eq_instr {sel : Sel} {p : Payload} {i j : Instr} :
    decodeBare sel p j = .instr i ↔ p = .empty ∧ j = i := by
  cases p <;> simp [decodeBare]

/-- A data answer decodes to RD_RESP or RD_LENERR, by its length. -/
theorem decodeData_eq_instr {c : DecodeCtx} {sel : Sel} {p : Payload} {i : Instr} (h : decodeData c sel p = .instr i) :
    ∃ b, p = .data b ∧ (b.length ≤ c.bufSize ∧ i = .rdResp b ∨
      c.bufSize < b.length ∧ b.length < 2 ^ 32 ∧ i = .rdLenerr b) := by
  cases p with
  | data b =>
    rw [decodeData] at h
    split_ifs at h with hfit hwide
    · cases h; exact ⟨b, rfl, .inl ⟨hfit, rfl⟩⟩
    · cases h; exact ⟨b, rfl, .inr ⟨Nat.lt_of_not_ge hfit, hwide, rfl⟩⟩
  | _ => simp [decodeData] at h

/-- RESET's mask leaves the three phase bits of its selector free. -/
theorem reset_selector : ∀ sel : Sel, sel &&& 0b111000#6 = 0b101000#6 → ∃ p : BitVec 3, sel = 5#3 ++ p := by
  decide

/-- What a selector decodes to is well formed, and encodes back to the selector with its operands, but for the phase
bits of RESET's. -/
theorem encode_decodeFsm {c : DecodeCtx} {sel : Sel} {p : Payload} {i : Instr} (h : decodeFsm c sel p = .instr i) :
    wellFormed c i = true ∧ i.encoded = true ∧ (i ≠ .reset → encode i = some (.fsm sel p)) ∧
      (i = .reset → ∃ q : BitVec 3, Transaction.fsm sel p = .fsm (5#3 ++ q) .empty) := by
  unfold decodeFsm at h
  split_ifs at h with htblgen hdata hrderr hwrack hwrerr hproc hlen hreset
  · obtain ⟨rfl, rfl⟩ := decodeBare_eq_instr.1 h
    simp [wellFormed, Instr.encoded, encode, htblgen]
  · obtain ⟨b, rfl, ⟨hfit, rfl⟩ | ⟨hlong, hwide, rfl⟩⟩ := decodeData_eq_instr h
    · simp [wellFormed, Instr.encoded, encode, hdata, hfit]
    · simpa [wellFormed, Instr.encoded, encode, hdata, hlong] using hwide
  · cases p <;> cases h
    simp [wellFormed, Instr.encoded, encode, hrderr]
  · obtain ⟨rfl, rfl⟩ := decodeBare_eq_instr.1 h
    simp [wellFormed, Instr.encoded, encode, hwrack]
  · cases p <;> cases h
    simp [wellFormed, Instr.encoded, encode, hwrerr]
  · obtain ⟨rfl, rfl⟩ := decodeBare_eq_instr.1 h
    simp [wellFormed, Instr.encoded, encode, hproc, hlen]
  · obtain ⟨rfl, rfl⟩ := decodeBare_eq_instr.1 h
    simp [wellFormed, Instr.encoded, encode, hproc, hlen]
  · obtain ⟨rfl, rfl⟩ := decodeBare_eq_instr.1 h
    obtain ⟨q, rfl⟩ := reset_selector sel hreset
    exact ⟨rfl, rfl, fun hne => absurd rfl hne, fun _ => ⟨q, rfl⟩⟩

/-- Settles O45: host accesses and selectors apart. -/
theorem encodeInvertsDecode : Obligations.EncodeInvertsDecode := by
  intro c tx i h
  cases tx with
  | bus a =>
    obtain rfl : decodeHost a = i := Decoded.instr.inj h
    obtain ⟨hwf, henc, htx⟩ := encode_decodeHost c a
    exact ⟨hwf, henc, fun _ => htx, fun hreset => absurd hreset (decodeHost_ne_reset a)⟩
  | fsm sel p => exact encode_decodeFsm h

/-- Settles O44: the rows without operands have one transaction each; the operands of the others decide the row as
their well-formedness says. -/
theorem decodeInvertsEncode : Obligations.DecodeInvertsEncode := by
  intro c i hwf henc
  cases i with
  | cmdIllegal w => exact ⟨_, rfl, congrArg Decoded.instr (decodeHost_write_cmd_of_illegal hwf)⟩
  | rdTable i => exact ⟨_, rfl, congrArg Decoded.instr (decodeHost_read_window (tableAddr_toNat i))⟩
  | busIllegal a =>
    obtain ⟨cause, hcause⟩ := exists_busCause_of_illegal hwf
    exact ⟨_, rfl, congrArg Decoded.instr (decodeHost_of_busCause_some hcause)⟩
  | rdResp b => exact ⟨_, rfl, if_pos (of_decide_eq_true hwf)⟩
  | rdLenerr b =>
    simp only [wellFormed, Bool.and_eq_true, decide_eq_true_eq] at hwf
    obtain ⟨hlong, hwide⟩ := hwf
    exact ⟨_, rfl, (if_neg hlong.not_ge).trans (if_pos hwide)⟩
  | chunk => exact ⟨_, rfl, congrArg Decoded.instr (if_neg (of_decide_eq_true hwf))⟩
  | finish => exact ⟨_, rfl, congrArg Decoded.instr (if_pos (of_decide_eq_true hwf))⟩
  | reduceStep | reduce8 | byteUpdate => exact nomatch henc
  | _ => exact ⟨_, rfl, rfl⟩

/-- Settles O46: the decoder evaluated on the nine words. -/
theorem writtenWordsDecode : Obligations.WrittenWordsDecode :=
  ⟨rfl, rfl, rfl, rfl, rfl, rfl, rfl, rfl, rfl⟩

/-! ## The step (20_memory.md R71) -/

section
variable {s : State} {ev : Event} {rest : List Event}

/-- The next event, from the agenda or the recurring events, runs when it decodes, and the events after it are the
agenda. -/
theorem step_of_upcoming {i : Instr} (h : s.upcoming = ev :: rest)
    (hd : decode (decodeCtx s) (transactionOf ev s.phase) = .instr i) : step s = exec i { s with agenda := rest } := by
  obtain ⟨hnext, htake⟩ := nextEvent_takeEvent h
  simp only [step, hnext, hd, htake]

/-- An event that decodes to nothing is not admitted. -/
theorem step_of_upcoming_reject {r : Reject} (h : s.upcoming = ev :: rest)
    (hd : decode (decodeCtx s) (transactionOf ev s.phase) = .reject r) : step s = .refused (.notAdmitted r) := by
  obtain ⟨hnext, -⟩ := nextEvent_takeEvent h
  simp [step, hnext, hd, h]

/-- With no event to come the machine takes the core's own step where there is one. -/
theorem step_of_no_event {i : Instr} (hag : s.agenda = []) (hrec : s.recurring = [])
    (hd : decode (decodeCtx s) (transactionOf .internal s.phase) = .instr i) : step s = exec i s := by
  obtain ⟨hnext, htake⟩ := nextEvent_takeEvent_none hag hrec
  simp only [step, hnext, hd, htake]

/-- With no event to come and no step of the core's the machine is stuck (70_reset_and_hazards.md R223). -/
theorem step_of_no_event_reject {r : Reject} (hag : s.agenda = []) (hrec : s.recurring = [])
    (hd : decode (decodeCtx s) (transactionOf .internal s.phase) = .reject r) : step s = .fault .stuck := by
  obtain ⟨hnext, -⟩ := nextEvent_takeEvent_none hag hrec
  have hup : s.upcoming = [] := (upcoming_of_recurring hag).trans hrec
  simp [step, hnext, hd, hup]

end

/-- Settles O48: the next event is that of the agenda, of the recurring events, or the core's. -/
theorem stepRunsTheDecodedInstruction : Obligations.StepRunsTheDecodedInstruction := by
  refine ⟨fun s ev rest i hag hd => ?_, fun s ev rest i hag hrec hd => ?_, fun s i hag hrec hd => ?_,
    fun s ev rest r hnext hd => ?_⟩
  · exact step_of_upcoming (upcoming_of_agenda hag) hd
  · exact step_of_upcoming ((upcoming_of_recurring hag).trans hrec) hd
  · exact step_of_no_event hag hrec hd
  · refine step_of_upcoming_reject (rest := rest) ?_ hd
    rcases hnext with hag | ⟨hag, hrec⟩
    · exact upcoming_of_agenda hag
    · exact (upcoming_of_recurring hag).trans hrec

/-! ## Table words (log entries 5, 10 and 18) -/

/-- A table word stands for an event that has its step in every phase or in none, or for a selector's event, with zero
operands, in the selector's phase. -/
theorem eventOfTableWord_cases (nbits w : Nat) :
    (∃ ev, eventOfTableWord nbits w = (ev, none) ∧ ((∃ a, ev = .host a) ∨ ev = .reset ∨ ev = .reserved)) ∨
    ∃ code p, eventOfTableWord nbits w = (eventOfCode code, some p) := by
  unfold eventOfTableWord
  split_ifs
  · exact .inl ⟨_, rfl, .inl ⟨_, rfl⟩⟩
  · exact .inl ⟨_, rfl, .inl ⟨_, rfl⟩⟩
  · dsimp only
    split_ifs with hreset
    · exact .inl ⟨_, rfl, .inr (.inl hreset)⟩
    · split
      · exact .inr ⟨_, _, rfl⟩
      · exact .inl ⟨_, rfl, .inr (.inr rfl)⟩
  · exact .inl ⟨_, rfl, .inr (.inr rfl)⟩

/-- What a table word decodes to is what its event and phase decode to. -/
theorem decodeTableWord_eq_some {nbits w : Nat} {ev : Event} {p : Option Phase} {i : Instr}
    (hword : eventOfTableWord nbits w = (ev, p)) (h : decodeTableWord nbits w = some i) :
    decode tableCtx (transactionOf ev (p.getD .idle)) = .instr i := by
  simp only [decodeTableWord, hword] at h
  split at h
  · rwa [← Option.some.inj h]
  · exact nomatch h

section
variable {c : DecodeCtx} {i : Instr}

/-- Without a phase of its own an event decodes to the same instruction in every phase and context. -/
theorem decode_of_phaseless {ev : Event} (hev : (∃ a, ev = .host a) ∨ ev = .reset ∨ ev = .reserved) {p : Phase}
    (h : decode tableCtx (transactionOf ev p) = .instr i) (q : Phase) : decode c (transactionOf ev q) = .instr i := by
  rcases hev with ⟨a, rfl⟩ | rfl | rfl
  · exact h
  · rw [decode_reset] at h ⊢
    exact h
  · rw [decode_reserved] at h
    exact nomatch h

/-- With zero operands the context decides in `PROC` only, where a table word asks for `BUFLEN` zero. -/
theorem decode_eventOfCode {code : BitVec 3} {p : Phase} (hc : p = .proc → c.buflen = 0#32)
    (h : decode tableCtx (transactionOf (eventOfCode code) p) = .instr i) :
    decode c (transactionOf (eventOfCode code) p) = .instr i := by
  unfold eventOfCode at h ⊢
  split_ifs at h ⊢
  · cases p with
    | proc => rwa [decode_internal, hc rfl]
    | _ => exact h
  · rw [decode_inData] at h ⊢
    simpa using h
  -- the other five events are decoded without looking at the context
  all_goals
    simp only [decode_inErr, decode_sinkAck, decode_sinkErr, decode_reset, decode_reserved] at h ⊢
    exact h

end

/-- Settles O51: the word's event is put first on the agenda, with the phase and the length it was decoded for. -/
theorem tableWordsRunNext : Obligations.TableWordsRunNext := by
  intro s nbits w i h
  rcases eventOfTableWord_cases nbits w with ⟨ev, hword, hev⟩ | ⟨code, p, hword⟩
  · have hd := decodeTableWord_eq_some hword h
    simp only [State.withFetchWord, hword]
    exact step_of_upcoming rfl (decode_of_phaseless hev hd s.phase)
  · have hd := decodeTableWord_eq_some hword h
    simp only [State.withFetchWord, hword]
    exact step_of_upcoming rfl (decode_eventOfCode (fun hp => if_pos hp) hd)

/-! ## The byte lanes of a register (20_memory.md R65) -/

theorem lane_getLsbD (w : Word) (k : Nat) {j : Nat} (hj : j < 8) : (lane w k).getLsbD j = w.getLsbD (8 * k + j) := by
  rw [lane, BitVec.getLsbD_extractLsb', decide_eq_true hj, Bool.true_and]

/-- Settles O58: bit `i` of the register is in lane `i / 8`. -/
theorem byteLanesAreLittleEndian : Obligations.ByteLanesAreLittleEndian := by
  refine fun w => ⟨fun k j _ hj => lane_getLsbD w k hj, ?_⟩
  apply BitVec.eq_of_getLsbD_eq
  intro i hi
  simp only [ofLanes, BitVec.getLsbD_append]
  split_ifs with h0 h1 h2 <;> rw [lane_getLsbD _ _ (by omega)] <;> congr 1 <;> omega

/-! ## The pseudo-instructions (R91) -/

theorem phaseCode_eq_zero_iff (p : Phase) : phaseCode p = 0#3 ↔ p = .idle := by
  cases p <;> decide

/-- No access carries the host variable that `LW` fills (R90). -/
theorem lineAccess_lw (k : Fin 8) (a : Addr) : lineAccess (.lw k a) = .read a := rfl

/-- The polls of WAITIDLE are equal reads of `STATUS`. -/
theorem decodeHost_waitIdleLines (n : Nat) :
    (waitIdleLines n).map (fun l => decodeHost (lineAccess l)) = List.replicate (n + 1) .rdStatus :=
  List.map_replicate

/-- Settles O59: each line is a host access at a fixed address, and a poll's test is on the field `PHASE`. -/
theorem pseudoInstructionsExpand : Obligations.PseudoInstructionsExpand := by
  refine ⟨fun n p => ?_, fun s => ?_⟩
  · cases p with
    | compute => rfl
    | computeCopy => rfl
    | waitIdle => exact decodeHost_waitIdleLines n
    | rdCount => simp only [expandPseudo, List.map_cons, List.map_nil, lineAccess_lw]; rfl
    | crc32 =>
      simp only [expandPseudo, List.map_cons, List.map_append, List.map_nil, decodeHost_waitIdleLines, lineAccess_lw]
      rfl
  · obtain ⟨-, hphase, -⟩ := statusWord_codes s
    rw [waitIdleEnds, hphase, decide_eq_true_iff, phaseCode_eq_zero_iff]

end Sys2Proof.Machine
end

section
/-!
PROOFS. 10_state.md R21 and R40, 41_stream_accumulator.md R130: which instruction writes which element, the arrows of
`PHASE`, and what the two logs record.
-/

namespace Sys2Proof.Machine

/-! ## The mux, field by field (41_stream_accumulator.md R125) -/

@[simp] theorem routeChunk_acc (n : Nat) (s : State) : (routeChunk n s).acc = s.acc := by rw [routeChunk_frame]
@[simp] theorem routeChunk_copy (n : Nat) (s : State) : (routeChunk n s).copy = s.copy := by rw [routeChunk_frame]
@[simp] theorem routeChunk_done (n : Nat) (s : State) : (routeChunk n s).done = s.done := by rw [routeChunk_frame]
@[simp] theorem routeChunk_ioerr (n : Nat) (s : State) : (routeChunk n s).ioerr = s.ioerr := by rw [routeChunk_frame]
@[simp] theorem routeChunk_errsrc (n : Nat) (s : State) : (routeChunk n s).errsrc = s.errsrc := by
  rw [routeChunk_frame]
@[simp] theorem routeChunk_errinfo (n : Nat) (s : State) : (routeChunk n s).errinfo = s.errinfo := by
  rw [routeChunk_frame]
@[simp] theorem routeChunk_inlog (n : Nat) (s : State) : (routeChunk n s).inlog = s.inlog := by rw [routeChunk_frame]

/-- The write that the mux issues is logged (R40). -/
theorem routeChunk_sinklog (n : Nat) (s : State) : (routeChunk n s).sinklog =
    if sinkWriteEnable s n = true
    then s.sinklog ++ [{ n := BitVec.ofNat 32 n, bytes := sinkWriteData s n, answer := none }] else s.sinklog := by
  rw [routeChunk]
  split <;> rfl

/-! ## The arrows of `PHASE` (41_stream_accumulator.md R130) -/

/-- Settles O36: the phase each instruction is enabled in and the one it leads to. -/
theorem phasesFollowTheGraph : Obligations.PhasesFollowTheGraph := by
  intro i s t h hr
  rcases exec_cases h with ⟨_, rfl⟩ | ⟨_, _, rfl⟩ | ⟨_, rfl⟩ | ⟨hi, hp, _, rfl⟩ | ⟨rfl, hp, rfl⟩ |
    ⟨b, rfl, hp, -, rfl⟩ | ⟨_, rfl, hp, rfl⟩ | ⟨_, rfl, hp, rfl⟩ | ⟨rfl, hp, rfl⟩ | ⟨_, rfl, hp, rfl⟩ |
    ⟨rfl, hp, hlen, rfl⟩ | ⟨rfl, hp, hlen, rfl⟩ | ⟨rfl, -⟩
  -- reads, rejected accesses and the datapath rows leave `PHASE`
  iterate 3 exact .inl rfl
  · simp [hi, hp]
  · simp [hp]
  · refine .inr (.inr (.inr (.inl ⟨hp, b, rfl, ?_⟩)))
    simp only [routeChunk_phase, sinkWriteEnable_eq_true_iff]
    rfl
  iterate 4 simp [hp]
  iterate 2 simp [hp, hlen]
  · exact absurd rfl hr

/-! ## The writers of the elements (10_state.md R21) -/

section
variable {i : Instr} {s t : State}

/-- The registers of a computation and the results are written by its own steps and by the commands (R21, column
"written by"). -/
theorem exec_writes_registers_only (h : exec i s = .next t) (hr : i ≠ .reset) :
    (i ≠ .compute → i ≠ .computeCopy → i ≠ .chunk → t.acc = s.acc) ∧
    ((∀ b, i ≠ .rdResp b) → t.buf = s.buf ∧ t.buflen = s.buflen) ∧
    (i ≠ .compute → i ≠ .computeCopy → t.copy = s.copy) ∧
    (i ≠ .compute → i ≠ .computeCopy → i ≠ .finish → t.done = s.done) ∧
    (i ≠ .compute → i ≠ .computeCopy → (∀ e, i ≠ .rdErr e) → (∀ b, i ≠ .rdLenerr b) → (∀ e, i ≠ .wrErr e) →
      t.ioerr = s.ioerr ∧ t.errsrc = s.errsrc ∧ t.errinfo = s.errinfo) := by
  rcases exec_cases h with ⟨_, rfl⟩ | ⟨_, _, rfl⟩ | ⟨_, rfl⟩ | ⟨rfl | rfl, -, _, rfl⟩ | ⟨rfl, -, rfl⟩ |
    ⟨_, rfl, -, -, rfl⟩ | ⟨_, rfl, -, rfl⟩ | ⟨_, rfl, -, rfl⟩ | ⟨rfl, -, rfl⟩ | ⟨_, rfl, -, rfl⟩ |
    ⟨rfl, -, -, rfl⟩ | ⟨rfl, -, -, rfl⟩ | ⟨rfl, -⟩
  all_goals simp at hr ⊢

/-- The arrows of R130 name the writers of `PHASE`; a command is one of them in `IDLE` only. -/
theorem exec_writes_phase_only (h : exec i s = .next t) (hr : i ≠ .reset)
    (hcmd : (i = .compute ∨ i = .computeCopy) → s.phase ≠ .idle) (hgen : i ≠ .tblGen) (hread : ∀ b, i ≠ .rdResp b)
    (hlen : ∀ b, i ≠ .rdLenerr b) (hrderr : ∀ e, i ≠ .rdErr e) (hack : i ≠ .wrAck) (hwrerr : ∀ e, i ≠ .wrErr e)
    (hchunk : i ≠ .chunk) (hfinish : i ≠ .finish) : t.phase = s.phase := by
  rcases phasesFollowTheGraph i s t h hr with hp | ⟨-, -, hi⟩ | ⟨hp, -, hi⟩ | ⟨-, b, hi, -⟩ | ⟨-, -, hi⟩ |
    ⟨-, -, hi, -⟩ | ⟨-, -, hi, -⟩ | ⟨-, -, ⟨e, hi⟩ | ⟨b, hi⟩⟩ | ⟨-, -, e, hi⟩
  · exact hp
  · exact absurd hi hgen
  · exact absurd hp (hcmd hi)
  · exact absurd hi (hread b)
  · exact absurd hi hack
  · exact absurd hi hchunk
  · exact absurd hi hfinish
  · exact absurd hi (hrderr e)
  · exact absurd hi (hlen b)
  · exact absurd hi (hwrerr e)

/-- `PERR` and `PCAUSE` are written by the two catch-all rows, a command outside `IDLE` and a read of a table that is not
ready (60_exceptions.md R186, 30_encoding.md R86). -/
theorem exec_writes_protocol_error_only (h : exec i s = .next t) (hr : i ≠ .reset) (hill : ∀ w, i ≠ .cmdIllegal w)
    (hbus : ∀ a, i ≠ .busIllegal a) (hcmd : (i = .compute ∨ i = .computeCopy) → s.phase = .idle)
    (htable : (∃ k, i = .rdTable k) → s.tblrdy = true) : t.perr = s.perr ∧ t.pcause = s.pcause := by
  cases i with
  | compute =>
    obtain rfl := (exec_compute_next ..).1 h
    rw [startCommand, hcmd (.inl rfl)]
    exact ⟨rfl, rfl⟩
  | computeCopy =>
    obtain rfl := (exec_computeCopy_next ..).1 h
    rw [startCommand, hcmd (.inr rfl)]
    exact ⟨rfl, rfl⟩
  | rdTable k =>
    rcases (exec_rdTable_next ..).1 h with ⟨-, rfl⟩ | ⟨hrdy, -⟩
    · exact ⟨rfl, rfl⟩
    · exact absurd (hrdy.symm.trans (htable ⟨k, rfl⟩)) (by decide)
  | cmdIllegal w => exact absurd rfl (hill w)
  | busIllegal a => exact absurd rfl (hbus a)
  | reset => exact absurd rfl hr
  | rdStatus | rdResult | rdCountLo | rdCountHi | rdErrinfo | reduceStep | reduce8 | byteUpdate =>
    obtain rfl := Host.Outcome.next.inj h
    exact ⟨rfl, rfl⟩
  | tblGen | rdLenerr | rdErr | wrAck | wrErr | chunk | finish =>
    obtain ⟨-, rfl⟩ := (whenEnabled_eq_next ..).1 h
    exact ⟨rfl, rfl⟩
  | rdResp b =>
    obtain ⟨-, rfl⟩ := (exec_rdResp_next ..).1 h
    simp

end

/-- Settles O34: the writers of each element, put together. -/
theorem elementsHaveOnlyTheirWriters : Obligations.ElementsHaveOnlyTheirWriters := by
  intro i s t h hr
  obtain ⟨htable, hresult, hcount⟩ := exec_writes_only h hr
  obtain ⟨hacc, hbuf, hcopy, hdone, hioerr⟩ := exec_writes_registers_only h hr
  refine ⟨exec_cfg h, fun hg => htable.resolve_left hg, fun hc hcc hk => ⟨hacc hc hcc hk, ?_⟩, hbuf, hcopy, hdone,
    hioerr, fun hf => hresult.resolve_left hf, exec_writes_phase_only h hr, exec_writes_protocol_error_only h hr⟩
  simpa [hk, hc, hcc] using hcount

/-- Settles O10: each row's meaning writes `dpOut`, and nothing else. -/
theorem datapathRowsChangeNoBlockState : Obligations.DatapathRowsChangeNoBlockState :=
  fun _ _ _ _ _ => ⟨(exec_reduceStep_next ..).2 rfl, (exec_reduce8_next ..).2 rfl, (exec_byteUpdate_next ..).2 rfl⟩

/-! ## Errors and results (60_exceptions.md R182, R192; 20_memory.md R73) -/

section
variable {i : Instr} {s t : State}

/-- A block in `IDLE` accepts a command at once, and the command clears the error (R192). -/
theorem compute_accepted (hp : t.phase = .idle) :
    ∃ u, exec .compute t = .next u ∧ u.ioerr = false ∧ u.errsrc = .inErr ∧ u.errinfo = 0#32 ∧ u.phase = .rdwait := by
  refine ⟨started false t, (exec_compute_next ..).2 ?_, rfl, rfl, rfl, rfl⟩
  rw [startCommand, hp]

/-- The three error steps are enabled while the block waits for an answer, and end the computation. -/
theorem exec_raises_ioerr (h : exec i s = .next t) (hs : s.ioerr = false) (ht : t.ioerr = true) :
    ((∃ e, i = .rdErr e) ∨ (∃ b, i = .rdLenerr b) ∨ ∃ e, i = .wrErr e) ∧ busy s = true ∧ t.phase = .idle := by
  rcases exec_cases h with ⟨_, rfl⟩ | ⟨_, _, rfl⟩ | ⟨_, rfl⟩ | ⟨-, -, _, rfl⟩ | ⟨-, -, rfl⟩ | ⟨_, -, -, -, rfl⟩ |
    ⟨b, rfl, hp, rfl⟩ | ⟨e, rfl, hp, rfl⟩ | ⟨-, -, rfl⟩ | ⟨e, rfl, hp, rfl⟩ | ⟨-, -, -, rfl⟩ | ⟨-, -, -, rfl⟩ | ⟨-, rfl⟩
  iterate 6 simp [hs] at ht
  · exact ⟨.inr (.inl ⟨b, rfl⟩), (busy_eq_true_iff s).2 (.inl hp), rfl⟩
  · exact ⟨.inl ⟨e, rfl⟩, (busy_eq_true_iff s).2 (.inl hp), rfl⟩
  · simp [hs] at ht
  · exact ⟨.inr (.inr ⟨e, rfl⟩), (busy_eq_true_iff s).2 (.inr (.inl hp)), rfl⟩
  iterate 3 simp [hs] at ht

end

/-- Settles O35: the error step leads to `IDLE`, where a command is accepted. -/
theorem ioErrorsEndABusyComputation : Obligations.IoErrorsEndABusyComputation := by
  intro i s t h hs ht
  obtain ⟨hi, hbusy, hidle⟩ := exec_raises_ioerr h hs ht
  exact ⟨hi, hbusy, hidle, compute_accepted hidle⟩

/-- Settles O37: the steps of a computation, which write the results, are enabled while `BUSY = 1` only. -/
theorem resultsHoldWhileNotBusy : Obligations.ResultsHoldWhileNotBusy := by
  intro i s t h hb hc hcc hr
  refine ⟨exec_keeps_not_busy h hb hc hcc, ?_⟩
  rcases exec_cases h with ⟨_, rfl⟩ | ⟨_, _, rfl⟩ | ⟨_, rfl⟩ | ⟨hcmd, -⟩ | ⟨-, -, rfl⟩ | ⟨_, -, hp, -⟩ |
    ⟨_, -, hp, -⟩ | ⟨_, -, hp, -⟩ | ⟨-, hp, -⟩ | ⟨_, -, hp, -⟩ | ⟨-, hp, -⟩ | ⟨-, hp, -⟩ | ⟨rfl, -⟩
  iterate 3 exact ⟨rfl, rfl, rfl, rfl, rfl, rfl⟩
  · exact absurd hcmd (not_or.2 ⟨hc, hcc⟩)
  · exact ⟨rfl, rfl, rfl, rfl, rfl, rfl⟩
  iterate 7 simp [busy, hp] at hb
  · exact absurd rfl hr

/-! ## The logs (10_state.md R40) -/

/-- Only the answers of the two stream agents write the logs. -/
theorem exec_writes_logs_only {i : Instr} {s t : State} (h : exec i s = .next t) (hread : ∀ b, i ≠ .rdResp b)
    (hlen : ∀ b, i ≠ .rdLenerr b) (hrderr : ∀ e, i ≠ .rdErr e) (hack : i ≠ .wrAck) (hwrerr : ∀ e, i ≠ .wrErr e) :
    t.inlog = s.inlog ∧ t.sinklog = s.sinklog := by
  rcases exec_cases h with ⟨_, rfl⟩ | ⟨_, _, rfl⟩ | ⟨_, rfl⟩ | ⟨-, -, _, rfl⟩ | ⟨-, -, rfl⟩ | ⟨b, hi, -⟩ |
    ⟨b, hi, -⟩ | ⟨e, hi, -⟩ | ⟨hi, -⟩ | ⟨e, hi, -⟩ | ⟨-, -, -, rfl⟩ | ⟨-, -, -, rfl⟩ | ⟨-, rfl⟩
  iterate 5 exact ⟨rfl, rfl⟩
  · exact absurd hi (hread b)
  · exact absurd hi (hlen b)
  · exact absurd hi (hrderr e)
  · exact absurd hi hack
  · exact absurd hi (hwrerr e)
  iterate 3 exact ⟨rfl, rfl⟩

/-- Settles O60: each answer's step appends or completes one entry. -/
theorem logsRecordThePortTransactions : Obligations.LogsRecordThePortTransactions := by
  refine ⟨fun s t b h => ?_, fun s t b h => ?_, fun s t e h => ?_, fun s t before w hlog h => ?_,
    fun s t before w e hlog h => ?_, fun i s t h => exec_writes_logs_only h⟩
  · obtain ⟨-, rfl⟩ := (exec_rdResp_next ..).1 h
    have hsent : sinkWriteData (storeChunk b (logInput (.data b) s)) b.length = b := writeBuf_take s.buf b
    rw [routeChunk_inlog, routeChunk_sinklog, hsent]
    exact ⟨rfl, rfl⟩
  · obtain ⟨-, rfl⟩ := (exec_rdLenerr_next ..).1 h
    exact ⟨rfl, rfl⟩
  · obtain ⟨-, rfl⟩ := (exec_rdErr_next ..).1 h
    exact ⟨rfl, rfl⟩
  · obtain ⟨-, rfl⟩ := (exec_wrAck_next ..).1 h
    exact ⟨rfl, by rw [logSinkAnswer_sinklog, hlog, answerLast_append]⟩
  · obtain ⟨-, rfl⟩ := (exec_wrErr_next ..).1 h
    exact ⟨rfl, by rw [raiseIOError_sinklog, logSinkAnswer_sinklog, hlog, answerLast_append]⟩

end Sys2Proof.Machine
end

section
/-!
PROOFS. 20_memory.md R64 and 41_stream_accumulator.md R121, R122, R145: the CRC without its table, and its check values.
-/

namespace Sys2Proof.Machine

/-! ## One message bit at a time (R64, R121) -/

/-- The message bit enters at bit 0, so a reducer step on the sum of register and message is a bit step on the register
and a shift of the message. -/
theorem bitStep_xor_shift (r m : Word) : bitStep r (m.getLsbD 0) ^^^ (m >>> 1) = reduceStep (r ^^^ m) := by
  have hpoly : Config.poly = 0xEDB88320#32 := rfl
  rw [reduceStep, bitStep, BitVec.getLsbD_xor, BitVec.ushiftRight_xor_distrib, hpoly]
  split <;> ac_rfl

/-- The first `n` bits of a message word, least significant first. -/
def lowBits (n : Nat) (m : Word) : List Bool := (List.range n).map m.getLsbD

theorem lowBits_succ (n : Nat) (m : Word) : lowBits (n + 1) m = m.getLsbD 0 :: lowBits n (m >>> 1) := by
  simp [lowBits, List.range_succ_eq_map, Nat.add_comm]

/-- `n` reducer steps take the first `n` message bits into the register and leave the others to come. -/
theorem foldl_bitStep_xor_shift (n : Nat) (r m : Word) :
    (lowBits n m).foldl bitStep r ^^^ (m >>> n) = reduceIter n (r ^^^ m) := by
  induction n generalizing r m with
  | zero => simp [lowBits]
  | succ n ih =>
    rw [lowBits_succ, List.foldl_cons, reduceIter_succ, ← bitStep_xor_shift, ← ih, ← BitVec.shiftRight_add,
      Nat.add_comm]

/-- A byte of the message is one table-driven update (R121). -/
theorem foldl_bitStep_byte (acc : Word) (b : Byte) :
    (bitsLsbFirst b).foldl bitStep acc = byteUpdate crcTable acc b := by
  have hbits : bitsLsbFirst b = lowBits 8 (b.setWidth 32) := by
    refine List.map_congr_left fun j hj => ?_
    have := List.mem_range.1 hj
    rw [BitVec.getLsbD_setWidth, decide_eq_true (by omega), Bool.true_and]
  have hrest : b.setWidth 32 >>> 8 = 0#32 := by
    apply BitVec.eq_of_toNat_eq
    have hb := b.isLt
    simp [Nat.shiftRight_eq_div_pow]
    omega
  rw [byteUpdateIsEightReducerSteps, ← reduceIter_eq_iterate, ← foldl_bitStep_xor_shift, hrest, BitVec.xor_zero, hbits]

/-- The division over a byte sequence is FOLD with the CRC table (R122). -/
theorem foldl_bitStep_bytes (acc : Word) (bs : List Byte) :
    (bs.flatMap bitsLsbFirst).foldl bitStep acc = fold crcTable acc bs := by
  induction bs generalizing acc with
  | nil => rfl
  | cons b bs ih => rw [List.flatMap_cons, List.foldl_append, foldl_bitStep_byte, ih, fold_cons]

/-- Settles O8: the division is FOLD from all ones, complemented. -/
theorem crcIsBitSerialDivision : Obligations.CrcIsBitSerialDivision :=
  fun bs => congrArg (~~~ ·) (foldl_bitStep_bytes Config.init bs).symm

/-- Settles O9: the table-driven CRC is evaluated on the three sequences. -/
theorem crcCheckValues : Obligations.CrcCheckValues :=
  ⟨by decide, by decide +kernel, by decide +kernel⟩

end Sys2Proof.Machine
end

section
/-!
PROOFS. Inside a computation (41_stream_accumulator.md R122, R126 to R130; 20_memory.md R72): every step keeps ACC and
COUNT equal to what was read so far, or ends the computation.
-/

namespace Sys2Proof.Machine

/-! ## The event of RESET (30_encoding.md R87) -/

/-- Only the reset event decodes to RESET. -/
theorem eq_reset_of_decode {c : DecodeCtx} {ev : Event} {p : Phase} (h : decode c (transactionOf ev p) = .instr .reset) :
    ev = .reset := by
  cases ev with
  | reset => rfl
  | host a => exact absurd (Decoded.instr.inj h) (decodeHost_ne_reset a)
  | internal => rw [decode_internal] at h; split_ifs at h <;> cases h
  | inData b => rw [decode_inData] at h; split_ifs at h <;> cases h
  | inErr e => rw [decode_inErr] at h; split_ifs at h; cases h
  | sinkAck => rw [decode_sinkAck] at h; split_ifs at h; cases h
  | sinkErr e => rw [decode_sinkErr] at h; split_ifs at h; cases h
  | reserved => rw [decode_reserved] at h; cases h

/-! ## What a computation has folded -/

section
variable {base : List InAnswer} {cs : List (List Byte)} {s t : State}

/-- A computation is in one of its phases. -/
theorem Tracks.busy (h : Tracks base cs s) : busy s = true := by
  obtain ⟨-, hphase⟩ := h
  cases hp : s.phase <;> simp [hp, Machine.busy] at hphase ⊢

/-- `Tracks` speaks of the input log, the phase, the chunk in `BUF`, `ACC` and `COUNT` only. -/
theorem Tracks.of_eq (h : Tracks base cs s) (hlog : t.inlog = s.inlog) (hphase : t.phase = s.phase)
    (hchunk : chunkBytes t = chunkBytes s) (hacc : t.acc = s.acc) (hcount : t.count = s.count) : Tracks base cs t := by
  unfold Tracks Folded at h ⊢
  rwa [hlog, hphase, hchunk, hacc, hcount]

/-- While a chunk is held, it is the last answer, and those before it are folded. -/
theorem tracks_iff_of_holding (hp : s.phase = .wrwait ∨ s.phase = .proc) : Tracks base cs s ↔
    s.inlog = base ++ cs.map InAnswer.data ∧ ∃ before, cs = before ++ [chunkBytes s] ∧ Folded before s := by
  rcases hp with hp | hp <;> simp only [Tracks, hp]

theorem tracks_iff_of_rdwait (hp : s.phase = .rdwait) :
    Tracks base cs s ↔ s.inlog = base ++ cs.map InAnswer.data ∧ Folded cs s := by
  simp only [Tracks, hp]

/-! ## What each step does to it (R123, R126 to R129) -/

/-- START folds no chunks. -/
theorem tracks_started (copy : Bool) (s : State) : Tracks s.inlog [] (started copy s) :=
  (tracks_iff_of_rdwait rfl).2 ⟨(List.append_nil _).symm, rfl, rfl⟩

/-- A chunk that is read is held, whether it is written or not. -/
theorem Tracks.read (h : Tracks base cs s) (hp : s.phase = .rdwait) {b : List Byte} (hb : b.length < 2 ^ 32) :
    Tracks base (cs ++ [b]) (routeChunk b.length (storeChunk b (logInput (.data b) s))) := by
  obtain ⟨hlog, hacc, hcount⟩ := (tracks_iff_of_rdwait hp).1 h
  have hholding : (routeChunk b.length (storeChunk b (logInput (.data b) s))).phase = .wrwait ∨
      (routeChunk b.length (storeChunk b (logInput (.data b) s))).phase = .proc := by
    rw [routeChunk_phase]
    exact ite_eq_or_eq ..
  have hchunk : chunkBytes (routeChunk b.length (storeChunk b (logInput (.data b) s))) = b := by
    rw [chunkBytes, routeChunk_buf, routeChunk_buflen]
    exact chunkBytes_storeChunk hb _
  refine (tracks_iff_of_holding hholding).2 ⟨?_, cs, by rw [hchunk], ?_, ?_⟩
  · simp [hlog]
  · rw [routeChunk_acc]; exact hacc
  · rw [routeChunk_count]; exact hcount

/-- The sink's acknowledgement leaves the chunk held (R127). -/
theorem Tracks.ack (h : Tracks base cs s) (hp : s.phase = .wrwait) :
    Tracks base cs { logSinkAnswer .ack s with phase := .proc } :=
  (tracks_iff_of_holding (.inr rfl)).2 ((tracks_iff_of_holding (.inl hp)).1 h)

theorem totalBytes_concat (cs : List (List Byte)) (c : List Byte) :
    totalBytes (cs ++ [c]) = totalBytes cs + c.length := by
  simp [totalBytes]

/-- CHUNK folds and counts the chunk that is held (R128). -/
theorem Tracks.chunk (h : Tracks base cs s) (hp : s.phase = .proc) (htable : s.table = crcTable)
    (hlen : (chunkBytes s).length = s.buflen.toNat) :
    Tracks base cs { s with
      count := s.count + s.buflen.setWidth 64, acc := fold s.table s.acc (chunkBytes s), phase := .rdwait } := by
  obtain ⟨hlog, before, rfl, hacc, hcount⟩ := (tracks_iff_of_holding (.inr hp)).1 h
  refine (tracks_iff_of_rdwait rfl).2 ⟨hlog, ?_, ?_⟩
  · simp [htable, hacc, fold_append]
  · simp only [totalBytes_concat, hlen, BitVec.ofNat_add, BitVec.ofNat_toNat, hcount]

/-- With `BUFLEN = 0` the chunk that is held is the empty answer, so ACC and COUNT stand for all the bytes (R129). -/
theorem Tracks.finish (h : Tracks base cs s) (hp : s.phase = .proc) (hlen : s.buflen = 0#32) :
    cs.getLast? = some [] ∧ ~~~ s.acc = crc cs.flatten ∧ s.count = BitVec.ofNat 64 (totalBytes cs) := by
  have hempty : chunkBytes s = [] := by rw [chunkBytes, hlen]; rfl
  obtain ⟨-, before, rfl, hacc, hcount⟩ := (tracks_iff_of_holding (.inr hp)).1 h
  rw [hempty]
  exact ⟨List.getLast?_concat .., by simp [hacc, crc], by simp [hcount, totalBytes_concat]⟩

/-- In `PROC` the chunk that is held has `BUFLEN` bytes (10_state.md R39 (e)). -/
theorem chunkBytes_length (hinv : BlockInv s) (hshape : Shape s) (hp : s.phase = .proc) :
    (chunkBytes s).length = s.buflen.toNat := by
  rw [chunkBytes, List.length_take, hshape.bufSize, min_eq_left (hinv.buflenFits (.inr hp))]

end

/-- Settles O52: the steps of a computation by the phase they are taken in; an I/O error and FINISH leave `DONE` and
`IOERR` as the invariants of a computing block have them. -/
theorem computationTracksItsInput : Obligations.ComputationTracksItsInput := by
  refine ⟨fun s t hp h => ?_, fun base cs s t hinv hshape htracks hstep => ?_⟩
  · rcases h with h | h
    · obtain rfl := (exec_compute_next ..).1 h
      rw [startCommand, hp]
      exact tracks_started false s
    · obtain rfl := (exec_computeCopy_next ..).1 h
      rw [startCommand, hp]
      exact tracks_started true s
  obtain ⟨i, hd, he⟩ := step_next s t hstep
  have htracks' : Tracks base cs s.takeEvent := htracks.of_eq rfl rfl rfl rfl rfl
  have hbusy := htracks.busy
  obtain ⟨hrdy, hdone, hioerr⟩ := hinv.of_busy hbusy
  have no_more {u : State} (h : Tracks base cs u) : Tracks base (cs ++ []) u := by rwa [List.append_nil]
  rcases exec_cases he with ⟨_, rfl⟩ | ⟨_, _, rfl⟩ | ⟨_, rfl⟩ | ⟨-, hp, -⟩ | ⟨-, hp, -⟩ | ⟨b, -, hp, hfit, rfl⟩ |
    ⟨_, -, -, rfl⟩ | ⟨_, -, -, rfl⟩ | ⟨-, hp, rfl⟩ | ⟨_, -, -, rfl⟩ | ⟨-, hp, -, rfl⟩ | ⟨-, hp, hlen, rfl⟩ | ⟨rfl, rfl⟩
  -- reads, rejected accesses and the datapath rows
  iterate 3 exact .inl ⟨[], no_more (htracks.of_eq rfl rfl rfl rfl rfl), Nat.zero_le _, rfl⟩
  -- a command in `IDLE` and TBL_GEN are no steps of a computing block
  · exact absurd hbusy (by simp [busy, show s.phase = .idle from hp])
  · exact absurd hbusy (by simp [busy, show s.phase = .tblgen from hp])
  · exact .inl ⟨[b], htracks'.read hp (length_lt_of_fits hshape.cfgLegal hfit), le_refl _, routeChunk_result ..⟩
  -- the input's two errors
  iterate 2 exact .inr (.inr (.inl ⟨rfl, hdone, rfl, rfl, rfl⟩))
  · exact .inl ⟨[], no_more (htracks'.ack hp), Nat.zero_le _, rfl⟩
  -- the sink's error
  · exact .inr (.inr (.inl ⟨rfl, hdone, rfl, rfl, rfl⟩))
  · have hlen : (chunkBytes s).length = s.buflen.toNat := chunkBytes_length hinv hshape hp
    have hchunk := htracks'.chunk hp (hshape.tableReady hrdy) hlen
    exact .inl ⟨[], no_more hchunk, Nat.zero_le _, rfl⟩
  · obtain ⟨hlast, hresult, hcount⟩ := htracks'.finish hp hlen
    exact .inr (.inl ⟨rfl, rfl, hioerr, hlast, hresult, hcount⟩)
  · exact .inr (.inr (.inr ⟨eq_reset_of_decode hd, rfl, rfl, rfl⟩))

/-! ## A run without end (70_reset_and_hazards.md R223) -/

/-- What every step keeps holds all along a run, which every number of steps continues. -/
theorem run_of_kept {P : State → Prop} (hkept : ∀ s, P s → ∃ t, step s = .next t ∧ P t) {s : State} (hs : P s)
    (n : Nat) : ∃ t, Sys2Proof.core.run n s = .next t ∧ P t := by
  induction n generalizing s with
  | zero => exact ⟨s, rfl, hs⟩
  | succ n ih =>
    obtain ⟨s', hstep, hs'⟩ := hkept s hs
    obtain ⟨t, hrun, ht⟩ := ih hs'
    exact ⟨t, (core_run_succ n hstep).trans hrun, ht⟩

/-- With an empty agenda a step is the one that is taken with the recurring events on it. -/
theorem step_of_refilled {s : State} (h : s.agenda = []) : step { s with agenda := s.recurring } = step s := by
  have hup : State.upcoming { s with agenda := s.recurring } = s.upcoming := by
    cases hrec : s.recurring <;> simp [State.upcoming, h, hrec]
  simp [step, nextEvent, State.takeEvent, hup, decodeCtx]

/-- Neither the steps of a path read the host's part nor do they write it. -/
theorem Path.withHost {s t : State} {evs : List Event} (h : Path s evs t) (v : HostView) :
    Path (s.withHost v) evs (t.withHost v) := by
  induction h with
  | nil s => exact .nil _
  | cons hstep _ ih => exact .cons (hstep.withHost v) ih

/-- The agenda leads to a state that waits for an answer, and the events that recur from there on are those of the
chunks `again`. -/
def Fed (again : List (List Byte)) (s : State) : Prop :=
  ∃ u, Path s s.agenda u ∧ u.phase = .rdwait ∧ u.cfg.wf = true ∧ ChunksFit u.cfg again ∧
    u.recurring = streamEvents u.copy u.cfg.skipZeroLenWrite again

section
variable {again : List (List Byte)} {s : State}

/-- A block that is fed computes. -/
theorem Fed.busy (h : Fed again s) : busy s = true := by
  obtain ⟨u, hpath, hp, -⟩ := h
  cases hag : s.agenda with
  | nil =>
    rw [hag] at hpath
    cases hpath
    exact (busy_eq_true_iff s).2 (.inl hp)
  | cons ev rest => exact hpath.busy (by simp [hag])

/-- The agenda's next event is a step, after which the block is fed. -/
theorem Fed.step_of_cons (h : Fed again s) {ev : Event} {rest : List Event} (hag : s.agenda = ev :: rest) :
    ∃ t, step s = .next t ∧ Fed again t := by
  obtain ⟨u, hpath, hu⟩ := h
  rw [hag] at hpath
  cases hpath with
  | cons hstep hrest =>
    exact ⟨_, hstep.step_eq (v := s.hostView) hag, _, hrest.withHost _, hu⟩

/-- Where the agenda is used up, the recurring events begin again, and they are not none. -/
theorem Fed.step (hne : again ≠ []) (h : Fed again s) : ∃ t, step s = .next t ∧ Fed again t := by
  cases hag : s.agenda with
  | cons ev rest => exact h.step_of_cons hag
  | nil =>
    obtain ⟨u, hpath, hp, hwf, hfit, hrec⟩ := h
    rw [hag] at hpath
    cases hpath
    have hrefilled : Fed again { s with agenda := s.recurring } := by
      refine ⟨(streamed s again).withHost { s.hostView with agenda := s.recurring }, ?_, rfl, hwf, hfit, hrec⟩
      have hstream := (path_stream hwf hp hfit).withHost { s.hostView with agenda := s.recurring }
      rwa [← hrec] at hstream
    obtain ⟨c, cs, rfl⟩ := List.exists_cons_of_ne_nil hne
    rw [← step_of_refilled hag]
    exact hrefilled.step_of_cons hrec

end

/-! ## How a computation ends, and where a run is stuck (R223) -/

/-- The arrows of R130 that lead out of the computing phases. -/
theorem exec_ends_busy {i : Instr} {s t : State} (h : exec i s = .next t) (hs : busy s = true) (ht : busy t = false) :
    (i = .finish ∧ s.buflen = 0#32) ∨ (∃ e, i = .rdErr e) ∨ (∃ b, i = .rdLenerr b) ∨ (∃ e, i = .wrErr e) ∨
      i = .reset := by
  by_cases hr : i = .reset
  · simp [hr]
  rcases phasesFollowTheGraph i s t h hr with hp | ⟨hp, -⟩ | ⟨-, hp, -⟩ | ⟨-, _, -, hp⟩ | ⟨-, hp, -⟩ |
    ⟨-, hp, -⟩ | ⟨-, -, hi, hlen⟩ | ⟨-, -, hi | hi⟩ | ⟨-, -, hi⟩
  · rw [busy, hp] at ht
    exact absurd (hs.symm.trans ht) (by decide)
  · simp [busy, hp] at hs
  · simp [busy, hp] at ht
  · split at hp <;> simp [busy, hp] at ht
  iterate 2 simp [busy, hp] at ht
  · exact .inl ⟨hi, hlen⟩
  · exact .inr (.inl hi)
  · exact .inr (.inr (.inl hi))
  · exact .inr (.inr (.inr (.inl hi)))

section
variable {s : State} (hag : s.agenda = []) (hrec : s.recurring = [])
include hag hrec

/-- In `IDLE`, `RDWAIT` and `WRWAIT` the core has no step of its own. -/
theorem step_stuck (hp : s.phase = .idle ∨ s.phase = .rdwait ∨ s.phase = .wrwait) : step s = .fault .stuck := by
  refine step_of_no_event_reject (r := .noStep (selector .internal s.phase)) hag hrec ?_
  rw [decode_internal]
  rcases hp with hp | hp | hp <;> simp [hp]

/-- In `TBLGEN` the core's step is TBL_GEN, in `PROC` it is FINISH or CHUNK. -/
theorem step_of_core (hp : s.phase = .tblgen ∨ s.phase = .proc) : ∃ t, step s = .next t := by
  rcases hp with hp | hp
  · rw [step_of_no_event (i := .tblGen) hag hrec (by rw [decode_internal, if_pos hp])]
    exact ⟨_, (exec_tblGen_next ..).2 ⟨hp, rfl⟩⟩
  · obtain ⟨t, hstep⟩ : ∃ t, Advances .internal s t := by
      by_cases hlen : s.buflen = 0#32
      · exact ⟨_, .finish hp hlen⟩
      · exact ⟨_, .chunk hp hlen⟩
    obtain ⟨i, hd, he⟩ := hstep.exec_eq
    exact ⟨t, (step_of_no_event hag hrec hd).trans he⟩

end

/-- Settles O49: the arrows out of a computing phase, the core's own step by phase, and the block that stays fed. -/
theorem stuckExactlyWithoutACoreStep : Obligations.StuckExactlyWithoutACoreStep := by
  refine ⟨fun i s t h hs ht => exec_ends_busy h hs ht, fun s hag hrec => ⟨step_stuck hag hrec, step_of_core hag hrec⟩,
    fun s now again _ hshape hp hnow hagain hne hag hrec n => ?_⟩
  have hpath : Path s s.agenda (streamed s now) := hag ▸ path_stream hshape.cfgLegal hp hnow
  have hfed : Fed again s := ⟨streamed s now, hpath, rfl, hshape.cfgLegal, hagain, hrec⟩
  obtain ⟨t, hrun, ht⟩ := run_of_kept (fun _ => Fed.step hne) hfed n
  exact ⟨t, hrun, ht.busy⟩

end Sys2Proof.Machine
end
